-- ==== Sys2Proof/Word.lean ====
section
/-! DEFINITION. The word types of the machine (spec 00_scope R5, R6): every value is unsigned. -/

namespace Sys2Proof

/-- A byte: a general register, a timer, SP, a memory cell (10_state R20). -/
abbrev Byte := BitVec 8

/-- A 16-bit word: an opcode, PC, I, a stack slot (10_state R20, 30_encoding R70). -/
abbrev Word := BitVec 16

/-- The 12-bit address immediate `nnn` (30_encoding R71). -/
abbrev Addr := BitVec 12

/-- The index of a general register V0..VF (10_state R21); the `x` and `y` fields. -/
abbrev RegIdx := Fin 16

/-- The index of a key of the input latch, its code 0x0..0xF (10_state R33). -/
abbrev KeyCode := Fin 16

/-- Register VF, the flag register (10_state R23). -/
abbrev VF : RegIdx := 15

end Sys2Proof
end

