-- ==== Sys2Proof/Config.lean ====
section
/-! DEFINITION. What an implementation fixes (00_scope R5) and the free value of `Cxkk`. The sizes the source states
stand as numbers where they are used: MEM_SIZE 4096, PROG_BASE 0x200, PROG_MAX 3584, FONT_BASE 0, 5 bytes a glyph,
STACK_DEPTH 16. -/

namespace Sys2Proof

/-- The byte drawn by the k-th executed `Cxkk` (41_alu R112, 10_state R36): any value 0..255, unrelated to any
state. It has no body, so nothing can be proved about it: DESIGN CHOICE, safe, log 4. -/
opaque Config.randomByte : Nat → Byte

/-- RESET_FILL (00_scope R5, decision D22): the reset value of memory outside the font and the program. -/
def Config.resetFill : Byte := 0x00

/-- FONT_TABLE (20_memory R58): the parameter's default, the table R58 gives from general knowledge.
PRESUMED, unsafe for a claim about pixels drawn from the font, log 5. -/
def Config.fontTable : Vector Byte 80 :=
  #v[0xF0, 0x90, 0x90, 0x90, 0xF0,
     0x20, 0x60, 0x20, 0x20, 0x70,
     0xF0, 0x10, 0xF0, 0x80, 0xF0,
     0xF0, 0x10, 0xF0, 0x10, 0xF0,
     0x90, 0x90, 0xF0, 0x10, 0x10,
     0xF0, 0x80, 0xF0, 0x10, 0xF0,
     0xF0, 0x80, 0xF0, 0x90, 0xF0,
     0xF0, 0x10, 0x20, 0x40, 0x40,
     0xF0, 0x90, 0xF0, 0x90, 0xF0,
     0xF0, 0x90, 0xF0, 0x10, 0xF0,
     0xF0, 0x90, 0xF0, 0x90, 0x90,
     0xE0, 0x90, 0xE0, 0x90, 0xE0,
     0xF0, 0x80, 0x80, 0x80, 0xF0,
     0xE0, 0x90, 0x90, 0x90, 0xE0,
     0xF0, 0x80, 0xF0, 0x80, 0xF0,
     0xF0, 0x80, 0xF0, 0x80, 0x80]

end Sys2Proof
end

