-- ==== Sys2Proof/Syntax.lean ====
section
/-! DEFINITION. The instruction set: one constructor per row of spec/opcode_table.json (30_encoding R75). Operand
types are exactly the fields of R71 and every value of a field is legal (R73), so no term is out of range (log 15). -/

namespace Sys2Proof

/-- The 34 instructions, in the order of 30_encoding R75. `SHR` and `SHL` keep the `y` field their words carry and
do not use it (R73). -/
inductive Instr where
  /-- `00E0` CLS (43_display R131) -/
  | cls
  /-- `00EE` RET (40_control_flow R91) -/
  | ret
  /-- `1nnn` JP nnn (40_control_flow R92) -/
  | jp (nnn : Addr)
  /-- `2nnn` CALL nnn (40_control_flow R93) -/
  | call (nnn : Addr)
  /-- `3xkk` SE Vx, kk (40_control_flow R94) -/
  | seImm (x : RegIdx) (kk : Byte)
  /-- `4xkk` SNE Vx, kk (40_control_flow R95) -/
  | sneImm (x : RegIdx) (kk : Byte)
  /-- `5xy0` SE Vx, Vy (40_control_flow R96) -/
  | seReg (x y : RegIdx)
  /-- `6xkk` LD Vx, kk (41_alu R101) -/
  | ldImm (x : RegIdx) (kk : Byte)
  /-- `7xkk` ADD Vx, kk (41_alu R102) -/
  | addImm (x : RegIdx) (kk : Byte)
  /-- `8xy0` LD Vx, Vy (41_alu R103) -/
  | ldReg (x y : RegIdx)
  /-- `8xy1` OR Vx, Vy (41_alu R104) -/
  | orReg (x y : RegIdx)
  /-- `8xy2` AND Vx, Vy (41_alu R105) -/
  | andReg (x y : RegIdx)
  /-- `8xy3` XOR Vx, Vy (41_alu R106) -/
  | xorReg (x y : RegIdx)
  /-- `8xy4` ADD Vx, Vy (41_alu R107) -/
  | addReg (x y : RegIdx)
  /-- `8xy5` SUB Vx, Vy (41_alu R108) -/
  | sub (x y : RegIdx)
  /-- `8xy6` SHR Vx; `y` is ignored (41_alu R109) -/
  | shr (x y : RegIdx)
  /-- `8xy7` SUBN Vx, Vy (41_alu R110) -/
  | subn (x y : RegIdx)
  /-- `8xyE` SHL Vx; `y` is ignored (41_alu R111) -/
  | shl (x y : RegIdx)
  /-- `9xy0` SNE Vx, Vy (40_control_flow R97) -/
  | sneReg (x y : RegIdx)
  /-- `Annn` LD I, nnn (42_index_memory R121) -/
  | ldI (nnn : Addr)
  /-- `Bnnn` JP V0, nnn (40_control_flow R98) -/
  | jpV0 (nnn : Addr)
  /-- `Cxkk` RND Vx, kk (41_alu R112) -/
  | rnd (x : RegIdx) (kk : Byte)
  /-- `Dxyn` DRW Vx, Vy, n (43_display R132) -/
  | drw (x y : RegIdx) (n : Fin 16)
  /-- `Ex9E` SKP Vx (44_timers_keys R143) -/
  | skp (x : RegIdx)
  /-- `ExA1` SKNP Vx (44_timers_keys R144) -/
  | sknp (x : RegIdx)
  /-- `Fx07` LD Vx, DT (44_timers_keys R140) -/
  | ldVxDt (x : RegIdx)
  /-- `Fx0A` LD Vx, K (44_timers_keys R145) -/
  | ldVxK (x : RegIdx)
  /-- `Fx15` LD DT, Vx (44_timers_keys R141) -/
  | ldDtVx (x : RegIdx)
  /-- `Fx18` LD ST, Vx (44_timers_keys R142) -/
  | ldStVx (x : RegIdx)
  /-- `Fx1E` ADD I, Vx (42_index_memory R122) -/
  | addI (x : RegIdx)
  /-- `Fx29` LD F, Vx (42_index_memory R123) -/
  | ldF (x : RegIdx)
  /-- `Fx33` LD B, Vx (42_index_memory R124) -/
  | ldB (x : RegIdx)
  /-- `Fx55` LD [I], Vx (42_index_memory R125) -/
  | storeRegs (x : RegIdx)
  /-- `Fx65` LD Vx, [I] (42_index_memory R126) -/
  | loadRegs (x : RegIdx)
  deriving DecidableEq, Repr

end Sys2Proof
end

