-- ==== Sys2Proof/WellFormed.lean ====
section
/-! DEFINITION. Which 16-bit words are instructions: the opcode map of 30_encoding R75 as data, and the check that R76
makes on a fetched word. It is written from the mask and match columns, apart from the decoder of Decode.lean. -/

namespace Sys2Proof

/-- One row of the opcode map: a word is the row's instruction exactly when `op AND mask = value` (R75). -/
structure OpcodeRow where
  pattern : String
  mask : Word
  value : Word
  deriving DecidableEq, Repr

/-- The word is this row's instruction (R75: `op AND mask == match`). -/
def OpcodeRow.covers (row : OpcodeRow) (op : Word) : Bool := op &&& row.mask == row.value

/-- Rows 1 to 9 and 20 to 23 of R75: families 0 to 7 and A to D. -/
def opcodeRowsPlain : List OpcodeRow :=
  [ ⟨"00E0", 0xFFFF, 0x00E0⟩, ⟨"00EE", 0xFFFF, 0x00EE⟩, ⟨"1nnn", 0xF000, 0x1000⟩, ⟨"2nnn", 0xF000, 0x2000⟩,
    ⟨"3xkk", 0xF000, 0x3000⟩, ⟨"4xkk", 0xF000, 0x4000⟩, ⟨"5xy0", 0xF00F, 0x5000⟩, ⟨"6xkk", 0xF000, 0x6000⟩,
    ⟨"7xkk", 0xF000, 0x7000⟩, ⟨"Annn", 0xF000, 0xA000⟩, ⟨"Bnnn", 0xF000, 0xB000⟩, ⟨"Cxkk", 0xF000, 0xC000⟩,
    ⟨"Dxyn", 0xF000, 0xD000⟩ ]

/-- Rows 10 to 19 of R75: families 8 and 9. -/
def opcodeRowsTwoRegisters : List OpcodeRow :=
  [ ⟨"8xy0", 0xF00F, 0x8000⟩, ⟨"8xy1", 0xF00F, 0x8001⟩, ⟨"8xy2", 0xF00F, 0x8002⟩, ⟨"8xy3", 0xF00F, 0x8003⟩,
    ⟨"8xy4", 0xF00F, 0x8004⟩, ⟨"8xy5", 0xF00F, 0x8005⟩, ⟨"8xy6", 0xF00F, 0x8006⟩, ⟨"8xy7", 0xF00F, 0x8007⟩,
    ⟨"8xyE", 0xF00F, 0x800E⟩, ⟨"9xy0", 0xF00F, 0x9000⟩ ]

/-- Rows 24 to 34 of R75: families E and F. -/
def opcodeRowsOneRegister : List OpcodeRow :=
  [ ⟨"Ex9E", 0xF0FF, 0xE09E⟩, ⟨"ExA1", 0xF0FF, 0xE0A1⟩, ⟨"Fx07", 0xF0FF, 0xF007⟩, ⟨"Fx0A", 0xF0FF, 0xF00A⟩,
    ⟨"Fx15", 0xF0FF, 0xF015⟩, ⟨"Fx18", 0xF0FF, 0xF018⟩, ⟨"Fx1E", 0xF0FF, 0xF01E⟩, ⟨"Fx29", 0xF0FF, 0xF029⟩,
    ⟨"Fx33", 0xF0FF, 0xF033⟩, ⟨"Fx55", 0xF0FF, 0xF055⟩, ⟨"Fx65", 0xF0FF, 0xF065⟩ ]

/-- The opcode map: the 34 rows of R75. -/
def opcodeMap : List OpcodeRow := opcodeRowsPlain ++ opcodeRowsTwoRegisters ++ opcodeRowsOneRegister

/-- A word is well formed when it matches a row of the map; every other word is illegal (R76). -/
def wellFormedWord (op : Word) : Bool := opcodeMap.any (·.covers op)

/-- The pattern R75 gives each instruction's row. -/
def Instr.pattern : Instr → String
  | .cls => "00E0"
  | .ret => "00EE"
  | .jp _ => "1nnn"
  | .call _ => "2nnn"
  | .seImm _ _ => "3xkk"
  | .sneImm _ _ => "4xkk"
  | .seReg _ _ => "5xy0"
  | .ldImm _ _ => "6xkk"
  | .addImm _ _ => "7xkk"
  | .ldReg _ _ => "8xy0"
  | .orReg _ _ => "8xy1"
  | .andReg _ _ => "8xy2"
  | .xorReg _ _ => "8xy3"
  | .addReg _ _ => "8xy4"
  | .sub _ _ => "8xy5"
  | .shr _ _ => "8xy6"
  | .subn _ _ => "8xy7"
  | .shl _ _ => "8xyE"
  | .sneReg _ _ => "9xy0"
  | .ldI _ => "Annn"
  | .jpV0 _ => "Bnnn"
  | .rnd _ _ => "Cxkk"
  | .drw _ _ _ => "Dxyn"
  | .skp _ => "Ex9E"
  | .sknp _ => "ExA1"
  | .ldVxDt _ => "Fx07"
  | .ldVxK _ => "Fx0A"
  | .ldDtVx _ => "Fx15"
  | .ldStVx _ => "Fx18"
  | .addI _ => "Fx1E"
  | .ldF _ => "Fx29"
  | .ldB _ => "Fx33"
  | .storeRegs _ => "Fx55"
  | .loadRegs _ => "Fx65"

/-- The row of R75 that belongs to an instruction. -/
def Instr.row (i : Instr) : Option OpcodeRow := opcodeMap.find? (·.pattern == i.pattern)

end Sys2Proof
end

