-- ==== Sys2Proof/Decode.lean ====
section
/-! DEFINITION. Decode (30_encoding R71 to R76), total on any bytes and rejecting by name, and the encoder. -/

namespace Sys2Proof

/-- Why bytes are not an instruction. -/
inductive DecodeError where
  /-- The word matches no row of the opcode map (30_encoding R76); the engine raises UnknownOpcode for it
  (60_exceptions R151). -/
  | unknownOpcode (op : Word)
  /-- Fewer than the two bytes every instruction has (30_encoding R70); never met by the engine, whose fetch reads two
  bytes or faults (20_memory R52). -/
  | truncated
  deriving DecidableEq, Repr

/-! ### The fields of an opcode word (30_encoding R71) -/

/-- A 4-bit field read as an index 0..15 (R73). -/
def nibbleIndex (b : BitVec 4) : Fin 16 := ⟨b.toNat, b.isLt⟩

/-- `family` = `op[15:12]`. -/
def familyField (op : Word) : BitVec 4 := op.extractLsb' 12 4

/-- `x` = `op[11:8]`. -/
def xField (op : Word) : RegIdx := nibbleIndex (op.extractLsb' 8 4)

/-- `y` = `op[7:4]`. -/
def yField (op : Word) : RegIdx := nibbleIndex (op.extractLsb' 4 4)

/-- The low nibble `n` = `op[3:0]` as bits, the secondary opcode of families 5, 8 and 9. -/
def lowNibbleField (op : Word) : BitVec 4 := op.extractLsb' 0 4

/-- `n` = `op[3:0]` as a count, the row count of `Dxyn`. -/
def nField (op : Word) : Fin 16 := nibbleIndex (lowNibbleField op)

/-- `kk` = `op[7:0]`. -/
def kkField (op : Word) : Byte := op.extractLsb' 0 8

/-- `nnn` = `op[11:0]`. -/
def nnnField (op : Word) : Addr := op.extractLsb' 0 12

/-! ### The decoder (30_encoding R74) -/

/-- Family 8: dispatch on the low nibble. -/
def decodeFamily8 (op : Word) : Except DecodeError Instr :=
  match (lowNibbleField op).toNat with
  | 0x0 => .ok (.ldReg (xField op) (yField op))
  | 0x1 => .ok (.orReg (xField op) (yField op))
  | 0x2 => .ok (.andReg (xField op) (yField op))
  | 0x3 => .ok (.xorReg (xField op) (yField op))
  | 0x4 => .ok (.addReg (xField op) (yField op))
  | 0x5 => .ok (.sub (xField op) (yField op))
  | 0x6 => .ok (.shr (xField op) (yField op))
  | 0x7 => .ok (.subn (xField op) (yField op))
  | 0xE => .ok (.shl (xField op) (yField op))
  | _ => .error (.unknownOpcode op)

/-- Family E: dispatch on the low byte. -/
def decodeFamilyE (op : Word) : Except DecodeError Instr :=
  match (kkField op).toNat with
  | 0x9E => .ok (.skp (xField op))
  | 0xA1 => .ok (.sknp (xField op))
  | _ => .error (.unknownOpcode op)

/-- Family F: dispatch on the low byte (90_conflicts C9). -/
def decodeFamilyF (op : Word) : Except DecodeError Instr :=
  match (kkField op).toNat with
  | 0x07 => .ok (.ldVxDt (xField op))
  | 0x0A => .ok (.ldVxK (xField op))
  | 0x15 => .ok (.ldDtVx (xField op))
  | 0x18 => .ok (.ldStVx (xField op))
  | 0x1E => .ok (.addI (xField op))
  | 0x29 => .ok (.ldF (xField op))
  | 0x33 => .ok (.ldB (xField op))
  | 0x55 => .ok (.storeRegs (xField op))
  | 0x65 => .ok (.loadRegs (xField op))
  | _ => .error (.unknownOpcode op)

/-- The decode of 30_encoding R74: the family by the high nibble, then the secondary dispatch. Families 5 and 9 check
the low nibble (90_conflicts C2, decision D5); family 0 matches the whole word (decision D4). -/
def decode (op : Word) : Except DecodeError Instr :=
  match (familyField op).toNat with
  | 0x0 =>
    if op = 0x00E0#16 then .ok .cls
    else if op = 0x00EE#16 then .ok .ret
    else .error (.unknownOpcode op)
  | 0x1 => .ok (.jp (nnnField op))
  | 0x2 => .ok (.call (nnnField op))
  | 0x3 => .ok (.seImm (xField op) (kkField op))
  | 0x4 => .ok (.sneImm (xField op) (kkField op))
  | 0x5 => if lowNibbleField op = 0#4 then .ok (.seReg (xField op) (yField op)) else .error (.unknownOpcode op)
  | 0x6 => .ok (.ldImm (xField op) (kkField op))
  | 0x7 => .ok (.addImm (xField op) (kkField op))
  | 0x8 => decodeFamily8 op
  | 0x9 => if lowNibbleField op = 0#4 then .ok (.sneReg (xField op) (yField op)) else .error (.unknownOpcode op)
  | 0xA => .ok (.ldI (nnnField op))
  | 0xB => .ok (.jpV0 (nnnField op))
  | 0xC => .ok (.rnd (xField op) (kkField op))
  | 0xD => .ok (.drw (xField op) (yField op) (nField op))
  | 0xE => decodeFamilyE op
  | _ => decodeFamilyF op

/-- An opcode from its two bytes: the byte at the lower address is the high byte (20_memory R52). -/
def wordOfBytes (hi lo : Byte) : Word := hi ++ lo

/-- The high byte of an opcode, the one at the lower address (20_memory R52). -/
def highByte (op : Word) : Byte := op.extractLsb' 8 8

/-- The low byte of an opcode, the one at the higher address (20_memory R52). -/
def lowByte (op : Word) : Byte := op.extractLsb' 0 8

/-- Decode from a stream of bytes in memory order: the instruction and the bytes after it (30_encoding R70). -/
def decodeBytes : List Byte → Except DecodeError (Instr × List Byte)
  | hi :: lo :: rest =>
    match decode (wordOfBytes hi lo) with
    | .ok i => .ok (i, rest)
    | .error e => .error e
  | _ => .error .truncated

/-! ### The encoder (30_encoding R71, R72, R75) -/

/-- A register index or count as a 4-bit field. -/
def nibbleOf (k : Fin 16) : BitVec 4 := BitVec.ofNat 4 k.val

/-- Format A: family, address. -/
def encodeA (family : BitVec 4) (nnn : Addr) : Word := family ++ nnn

/-- Formats I and X: family, register, low byte. -/
def encodeI (family : BitVec 4) (x : RegIdx) (kk : Byte) : Word := family ++ (nibbleOf x ++ kk)

/-- Formats R and D: family, two registers, low nibble. -/
def encodeR (family : BitVec 4) (x y : RegIdx) (n : BitVec 4) : Word := family ++ (nibbleOf x ++ (nibbleOf y ++ n))

/-- The word of an instruction (30_encoding R75). -/
def encode : Instr → Word
  | .cls => 0x00E0
  | .ret => 0x00EE
  | .jp nnn => encodeA 0x1 nnn
  | .call nnn => encodeA 0x2 nnn
  | .seImm x kk => encodeI 0x3 x kk
  | .sneImm x kk => encodeI 0x4 x kk
  | .seReg x y => encodeR 0x5 x y 0x0
  | .ldImm x kk => encodeI 0x6 x kk
  | .addImm x kk => encodeI 0x7 x kk
  | .ldReg x y => encodeR 0x8 x y 0x0
  | .orReg x y => encodeR 0x8 x y 0x1
  | .andReg x y => encodeR 0x8 x y 0x2
  | .xorReg x y => encodeR 0x8 x y 0x3
  | .addReg x y => encodeR 0x8 x y 0x4
  | .sub x y => encodeR 0x8 x y 0x5
  | .shr x y => encodeR 0x8 x y 0x6
  | .subn x y => encodeR 0x8 x y 0x7
  | .shl x y => encodeR 0x8 x y 0xE
  | .sneReg x y => encodeR 0x9 x y 0x0
  | .ldI nnn => encodeA 0xA nnn
  | .jpV0 nnn => encodeA 0xB nnn
  | .rnd x kk => encodeI 0xC x kk
  | .drw x y n => encodeR 0xD x y (nibbleOf n)
  | .skp x => encodeI 0xE x 0x9E
  | .sknp x => encodeI 0xE x 0xA1
  | .ldVxDt x => encodeI 0xF x 0x07
  | .ldVxK x => encodeI 0xF x 0x0A
  | .ldDtVx x => encodeI 0xF x 0x15
  | .ldStVx x => encodeI 0xF x 0x18
  | .addI x => encodeI 0xF x 0x1E
  | .ldF x => encodeI 0xF x 0x29
  | .ldB x => encodeI 0xF x 0x33
  | .storeRegs x => encodeI 0xF x 0x55
  | .loadRegs x => encodeI 0xF x 0x65

/-- The two bytes of an instruction in memory order (20_memory R52). -/
def encodeBytes (i : Instr) : List Byte := [highByte (encode i), lowByte (encode i)]

/-- The word the opcode table numbers: bit 0 is the least significant bit of the one 16-bit word, and every bit above
`nbits` is 0. -/
def tableWord (nbits w : Nat) : Word := BitVec.ofNat 16 (w % 2 ^ nbits)

/-- The instruction the decoder reads from a table word, laid out in memory order. -/
def decodeTableWord (nbits w : Nat) : Option Instr :=
  match decodeBytes [highByte (tableWord nbits w), lowByte (tableWord nbits w)] with
  | .ok (i, _) => some i
  | .error _ => none

end Sys2Proof
end

