-- ==== Sys2Proof/Machine/State.lean ====
section
/-! DEFINITION. The architectural state (10_state R20), the reasons a step can stop, and the state after reset
(10_state R38). -/

namespace Sys2Proof.Machine

/-- MEM as the list of bytes that differ from the reset image, in rising order of address (20_memory R50; the
canonical form is Memory.wf of Ops.lean, log 6). -/
abbrev Memory := List Host.Cell

/-- FB: 32 rows of 64 pixels, `true` = set (10_state R32). -/
abbrev Framebuffer := Vector (Vector Bool 64) 32

/-- MODE: what a `step` event does (10_state R34). -/
inductive Mode where
  | running
  | awaitKey
  | faulted
  deriving DecidableEq, Repr

/-- The four fault causes (60_exceptions R150). -/
inductive FaultKind where
  | unknownOpcode
  | stackOverflow
  | stackUnderflow
  | memOutOfBounds
  deriving DecidableEq, Repr

/-- The numeric code of a fault cause (60_exceptions R150, decision D17). -/
def FaultKind.code : FaultKind → Nat
  | .unknownOpcode => 1
  | .stackOverflow => 2
  | .stackUnderflow => 3
  | .memOutOfBounds => 4

/-- The fault record (60_exceptions R155): `pc` of the faulting step, `opcode` or NONE for a fetch fault, `addr` for
MemOutOfBounds and NONE for the others. -/
structure FaultRecord where
  kind : FaultKind
  pc : Word
  opcode : Option Word
  addr : Option Word
  deriving DecidableEq, Repr

/-- Why the MODEL stops. The machine's own faults are not here: taking one is a next state (60_exceptions R157, log 2). -/
inductive Fault where
  /-- Raised by CALL and RET in a state where SP > 16, a value SP does not have (10_state R20, R29) and no run reaches:
  there is no stack slot to touch. DESIGN CHOICE, safe: it stops where the spec gives no state. Log 3. -/
  | stackPointerOutOfRange
  deriving DecidableEq, Repr

/-- Why the model has no meaning for an instruction. -/
inductive Refusal where
  /-- Raised by a dispatch arm whose instruction has no meaning yet; safe, since it only stops. No arm of Dispatch.lean
  raises it. -/
  | notModelled (mnemonic : String)
  deriving DecidableEq, Repr

/-- The complete architectural state (10_state R20), and the model's own draw counter. -/
structure State where
  /-- V0..VF (R21). -/
  v : Vector Byte 16
  /-- The index register I (R25). -/
  i : Word
  /-- The program counter (R26). -/
  pc : Word
  /-- The number of return addresses held, 0..16 (R29). -/
  sp : Byte
  /-- The call stack (R29). -/
  stack : Vector Word 16
  /-- The delay timer (R30). -/
  dt : Byte
  /-- The sound timer (R30). -/
  sr : Byte
  /-- MEM (R31). -/
  mem : Memory
  /-- The framebuffer (R32). -/
  fb : Framebuffer
  /-- The input latch, `true` = pressed (R33). -/
  key : Vector Bool 16
  /-- The run state (R34). -/
  mode : Mode
  /-- The register `Fx0A` waits to load (R35). -/
  waitx : RegIdx
  /-- The captured key press, or NONE (R35). -/
  kp : Option KeyCode
  /-- The fault record, or NONE (R37). -/
  fault : Option FaultRecord
  /-- THE MODEL'S OWN: how many random bytes have been drawn; each draw is Config.randomByte at this count (R36, R112,
  log 4). -/
  draws : Nat
  deriving DecidableEq, Repr

/-- The state after reset with an empty program (10_state R38, 70_reset_and_hazards R190); Events.lean's State.boot is
reset with any program and font. `draws` is the model's own: DESIGN CHOICE, log 4. -/
def State.reset : State where
  v := Vector.replicate 16 0x00
  i := 0x0000
  pc := 0x0200
  sp := 0
  stack := Vector.replicate 16 0x0000
  dt := 0x00
  sr := 0x00
  mem := []
  fb := Vector.replicate 32 (Vector.replicate 64 false)
  key := Vector.replicate 16 false
  mode := .running
  waitx := 0
  kp := none
  fault := none
  draws := 0

end Sys2Proof.Machine
end

