-- ==== Sys2Proof/Machine/Ops.lean ====
section
/-! DEFINITION. The named operations over memory, registers, PC, the stack and the framebuffer, the fetch, and taking a
fault, the one exception mechanism of the machine. There is no return from a fault (60_exceptions R159). -/

namespace Sys2Proof.Machine

/-! ### Memory (20_memory) -/

/-- What an address no cell lists reads as: the reset contents (10_state R38), FONT_TABLE at 0x000..0x04F and RESET_FILL
elsewhere. The spec's decisions D22, D23, D24: PRESUMED and unsafe, logs 5 and 6. -/
def unlistedByte (a : Nat) : Byte :=
  if h : a < 80 then Config.fontTable[a] else Config.resetFill

/-- The byte at an address in range (`MEM[a]` of 20_memory R51). -/
def Memory.read : Memory → Nat → Byte
  | [], a => unlistedByte a
  | (a', b) :: m, a => if a = a' then b else Memory.read m a

/-- One byte written, in canonical form (`MEM[a] <- v` of 20_memory R51). -/
def Memory.write : Memory → Nat → Byte → Memory
  | [], a, v => if v = unlistedByte a then [] else [(a, v)]
  | (a', b) :: m, a, v =>
    if a < a' then (if v = unlistedByte a then (a', b) :: m else (a, v) :: (a', b) :: m)
    else if a = a' then (if v = unlistedByte a then m else (a, v) :: m)
    else (a', b) :: Memory.write m a v

/-- Bytes written at ascending addresses (20_memory R53). -/
def Memory.writeBytes (m : Memory) (a : Nat) : List Byte → Memory
  | [] => m
  | b :: bs => Memory.writeBytes (Memory.write m a b) (a + 1) bs

/-- `count` bytes read at ascending addresses (20_memory R53). -/
def Memory.readBytes (m : Memory) (a : Nat) : Nat → List Byte
  | 0 => []
  | count + 1 => Memory.read m a :: Memory.readBytes m (a + 1) count

/-- The canonical form: addresses strictly rising and below MEM_SIZE, no cell equal to what its address reads as
unlisted. -/
abbrev Memory.wf (m : Memory) : Prop :=
  m.Pairwise (fun c d => c.1 < d.1) ∧ ∀ c ∈ m, c.1 < 4096 ∧ c.2 ≠ unlistedByte c.1

/-- The bounds check of an access of `count` bytes at `base`, made before anything is written (20_memory R51,
42_index_memory R120): the lowest address of the access outside 0..4095, if there is one (60_exceptions R154). Addresses
are unbounded integers and do not wrap (00_scope R7). -/
def outOfBounds (base : Word) (count : Nat) : Option Word :=
  if 0 < count ∧ 4096 < base.toNat + count then
    some (if 4096 ≤ base.toNat then base else 0x1000)
  else none

/-- The instruction fetch `MemRead(PC, 2)` (20_memory R52): the opcode, high byte first, or the faulting address. -/
def State.fetch (s : State) : Except Word Word :=
  match outOfBounds s.pc 2 with
  | some addr => .error addr
  | none => .ok (wordOfBytes (Memory.read s.mem s.pc.toNat) (Memory.read s.mem (s.pc.toNat + 1)))

/-! ### Registers and PC (10_state) -/

/-- Read of `V[x]` (10_state R21). -/
def State.reg (s : State) (x : RegIdx) : Byte := s.v[x.val]

/-- Write of `V[x]` (10_state R21). -/
def State.setReg (s : State) (x : RegIdx) (b : Byte) : State := { s with v := s.v.set x.val b }

/-- Write of the whole register file. -/
def State.setRegs (s : State) (v : Vector Byte 16) : State := { s with v := v }

/-- Write of PC, kept to 16 bits (00_scope R7). -/
def State.jump (s : State) (target : Word) : State := { s with pc := target }

/-- `PC <- PC + 2` (10_state R27). -/
def State.advance (s : State) : State := s.jump (s.pc + 2)

/-- The skip rule: `PC <- PC + 4` when the condition holds, else `PC <- PC + 2` (40_control_flow R99). -/
def State.skipIf (s : State) (condition : Bool) : State := s.jump (s.pc + if condition then 4 else 2)

/-- Write of I (10_state R25). -/
def State.setI (s : State) (w : Word) : State := { s with i := w }

/-- Write of DT (10_state R30). -/
def State.setDt (s : State) (b : Byte) : State := { s with dt := b }

/-- Write of SR (10_state R30). -/
def State.setSr (s : State) (b : Byte) : State := { s with sr := b }

/-- Write of the whole of MEM. -/
def State.setMem (s : State) (m : Memory) : State := { s with mem := m }

/-- Write of the whole of FB. -/
def State.setFb (s : State) (fb : Framebuffer) : State := { s with fb := fb }

/-- The next random byte (41_alu R112): the free value at the current count. -/
def State.randomByte (s : State) : Byte := Config.randomByte s.draws

/-- The count after a draw, so that the next draw is a fresh free value (log 4). -/
def State.countDraw (s : State) : State := { s with draws := s.draws + 1 }

/-! ### The call stack (10_state R29, decision D6) -/

/-- `STACK[SP] <- w; SP <- SP + 1` (40_control_flow R93), where slot SP exists. -/
def State.push (s : State) (h : s.sp.toNat < 16) (w : Word) : State :=
  { s with stack := s.stack.set s.sp.toNat w h, sp := s.sp + 1 }

/-- `PC <- STACK[SP - 1]; SP <- SP - 1` (40_control_flow R91), where slot SP - 1 exists. The slot keeps its value. -/
def State.pop (s : State) (h : s.sp.toNat - 1 < 16) : State :=
  { s with pc := s.stack[s.sp.toNat - 1]'h, sp := s.sp - 1 }

/-! ### Waiting for a key (10_state R34, R35) -/

/-- `MODE <- AWAIT_KEY; WAITX <- x; KP <- NONE` (44_timers_keys R145). -/
def State.startWait (s : State) (x : RegIdx) : State := { s with mode := .awaitKey, waitx := x, kp := none }

/-- `MODE <- RUNNING; WAITX <- 0; KP <- NONE` (44_timers_keys R146). -/
def State.endWait (s : State) : State := { s with mode := .running, waitx := 0, kp := none }

/-! ### The framebuffer (43_display R130) -/

/-- `FB[r][c]`. -/
def Framebuffer.get (fb : Framebuffer) (r : Fin 32) (c : Fin 64) : Bool := (fb[r.val])[c.val]

/-- `FB[r][c] <- FB[r][c] XOR 1`. -/
def Framebuffer.flip (fb : Framebuffer) (r : Fin 32) (c : Fin 64) : Framebuffer :=
  fb.set r.val ((fb[r.val]).set c.val (!(Framebuffer.get fb r c)))

/-- Every pixel 0 (43_display R131). -/
def Framebuffer.clear : Framebuffer := Vector.replicate 32 (Vector.replicate 64 false)

/-! ### Taking a fault (60_exceptions R157) -/

/-- Fault entry: `FAULT <- (kind, pc, opcode, addr); MODE <- FAULTED` and nothing else (60_exceptions R155, R157). It is
applied to the state before the step, so a faulting step changes nothing else (R158). -/
def State.raise (s : State) (kind : FaultKind) (opcode addr : Option Word) : State :=
  { s with mode := .faulted, fault := some ⟨kind, s.pc, opcode, addr⟩ }

/-- The fault of the instruction `ins` under execution: the recorded opcode is the instruction's own word, which is the
fetched one because encoding inverts decoding (60_exceptions R155, log 8). -/
def State.raiseIn (s : State) (ins : Instr) (kind : FaultKind) (addr : Option Word) : State :=
  s.raise kind (some (encode ins)) addr

/-- An instruction that accesses `count` bytes at I: MemOutOfBounds when the range leaves memory, otherwise the state
`done` (42_index_memory R120, 60_exceptions R154, R158). -/
def State.accessAtI (s : State) (ins : Instr) (count : Nat) (done : State) : Host.Outcome State Fault Refusal :=
  match outOfBounds s.i count with
  | some addr => .next (s.raiseIn ins .memOutOfBounds (some addr))
  | none => .next done

end Sys2Proof.Machine
end

