-- ==== Sys2Proof/Machine/Flags.lean ====
section
/-! DEFINITION. The flag computations: VF is the one flag, written 0x01 or 0x00 (10_state R23). -/

namespace Sys2Proof.Machine

/-- The byte of a flag: exactly 0x01 or 0x00 (10_state R23, decision D30). -/
def flagByte (flag : Bool) : Byte := if flag then 0x01 else 0x00

/-- `V[0xF] <- flag`, written after the result (10_state R24, decision D7). -/
def State.setFlag (s : State) (flag : Bool) : State := s.setReg VF (flagByte flag)

/-- The 9-bit sum of two bytes (41_alu R107). -/
def sum9 (a b : Byte) : BitVec 9 := a.setWidth 9 + b.setWidth 9

/-- The carry out of an addition, bit 8 of the 9-bit sum (41_alu R107). -/
def carryOut (a b : Byte) : Bool := (sum9 a b).getLsbD 8

/-- The flag of a subtraction: the minuend is strictly greater (41_alu R108, 90_conflicts C7). -/
def strictlyGreater (minuend subtrahend : Byte) : Bool := decide (subtrahend < minuend)

/-- The bit a right shift shifts out (41_alu R109). -/
def shiftedOutRight (a : Byte) : Bool := a.getLsbD 0

/-- The bit a left shift shifts out (41_alu R111). -/
def shiftedOutLeft (a : Byte) : Bool := a.getLsbD 7

/-- The end of a flag-writing register instruction: result to Vx, then the flag to VF, then PC (41_alu R100). -/
def State.finishWithFlag (s : State) (x : RegIdx) (result : Byte) (flag : Bool) : State :=
  ((s.setReg x result).setFlag flag).advance

/-- The end of a register instruction that writes no flag: result to Vx, then PC (41_alu R100). -/
def State.finish (s : State) (x : RegIdx) (result : Byte) : State := (s.setReg x result).advance

end Sys2Proof.Machine
end

