-- ==== Sys2Proof/Machine/Alu.lean ====
section
/-! DEFINITION. Register load, arithmetic, logic, shift and random instructions (41_alu R100 to R113). -/

namespace Sys2Proof.Machine

/-- LD Vx, kk (R101). -/
def execLdImm (x : RegIdx) (kk : Byte) (s : State) : Host.Outcome State Fault Refusal :=
  .next (s.finish x kk)

/-- ADD Vx, kk (R102): modulo 256, no flag. -/
def execAddImm (x : RegIdx) (kk : Byte) (s : State) : Host.Outcome State Fault Refusal :=
  .next (s.finish x (s.reg x + kk))

/-- LD Vx, Vy (R103). -/
def execLdReg (x y : RegIdx) (s : State) : Host.Outcome State Fault Refusal :=
  .next (s.finish x (s.reg y))

/-- OR Vx, Vy (R104): VF is unchanged unless x = F (decision D8). -/
def execOrReg (x y : RegIdx) (s : State) : Host.Outcome State Fault Refusal :=
  .next (s.finish x (s.reg x ||| s.reg y))

/-- AND Vx, Vy (R105): VF is unchanged unless x = F (decision D8). -/
def execAndReg (x y : RegIdx) (s : State) : Host.Outcome State Fault Refusal :=
  .next (s.finish x (s.reg x &&& s.reg y))

/-- XOR Vx, Vy (R106): VF is unchanged unless x = F (decision D8). -/
def execXorReg (x y : RegIdx) (s : State) : Host.Outcome State Fault Refusal :=
  .next (s.finish x (s.reg x ^^^ s.reg y))

/-- ADD Vx, Vy (R107): the low 8 bits of the 9-bit sum, VF = carry. -/
def execAddReg (x y : RegIdx) (s : State) : Host.Outcome State Fault Refusal :=
  .next (s.finishWithFlag x ((sum9 (s.reg x) (s.reg y)).setWidth 8) (carryOut (s.reg x) (s.reg y)))

/-- SUB Vx, Vy (R108): Vx - Vy modulo 256, VF = Vx strictly greater. -/
def execSub (x y : RegIdx) (s : State) : Host.Outcome State Fault Refusal :=
  .next (s.finishWithFlag x (s.reg x - s.reg y) (strictlyGreater (s.reg x) (s.reg y)))

/-- SHR Vx (R109): the operand is Vx, y is ignored; VF = old bit 0. -/
def execShr (x _y : RegIdx) (s : State) : Host.Outcome State Fault Refusal :=
  .next (s.finishWithFlag x (s.reg x >>> 1) (shiftedOutRight (s.reg x)))

/-- SUBN Vx, Vy (R110): Vy - Vx modulo 256, VF = Vy strictly greater. -/
def execSubn (x y : RegIdx) (s : State) : Host.Outcome State Fault Refusal :=
  .next (s.finishWithFlag x (s.reg y - s.reg x) (strictlyGreater (s.reg y) (s.reg x)))

/-- SHL Vx (R111): the operand is Vx, y is ignored; VF = old bit 7. -/
def execShl (x _y : RegIdx) (s : State) : Host.Outcome State Fault Refusal :=
  .next (s.finishWithFlag x (s.reg x <<< 1) (shiftedOutLeft (s.reg x)))

/-- RND Vx, kk (R112): one fresh random byte, masked by kk. -/
def execRnd (x : RegIdx) (kk : Byte) (s : State) : Host.Outcome State Fault Refusal :=
  .next (s.countDraw.finish x (s.randomByte &&& kk))

end Sys2Proof.Machine
end

