-- ==== Sys2Proof/Machine/Operands.lean ====
section
/-! DEFINITION. The operand forms: immediates, key codes, font addresses, decimal digits, register ranges, sprite rows
and pixels. -/

namespace Sys2Proof.Machine

/-- `zext_16(nnn)` (30_encoding R73). -/
def zextAddr (nnn : Addr) : Word := nnn.setWidth 16

/-- `zext_16` of a byte (00_scope R7). -/
def zextByte (b : Byte) : Word := b.setWidth 16

/-- The key code or font digit a register names: its low nibble (44_timers_keys R143, 42_index_memory R123; decisions
D10 and D11). -/
def lowNibble (b : Byte) : Fin 16 := nibbleIndex (b.extractLsb' 0 4)

/-- `KEY[k]` (10_state R33). -/
def State.keyDown (s : State) (k : KeyCode) : Bool := s.key[k.val]

/-- A key code zero-extended to a byte (44_timers_keys R146). -/
def keyByte (k : KeyCode) : Byte := BitVec.ofNat 8 k.val

/-- The address of the glyph of a digit: FONT_BASE + 5 * digit, with FONT_BASE = 0 (42_index_memory R123). -/
def glyphAddress (digit : Fin 16) : Word := BitVec.ofNat 16 (5 * digit.val)

/-- Hundreds, tens and ones of a byte, one digit a byte (42_index_memory R124). -/
def decimalDigits (b : Byte) : List Byte :=
  [BitVec.ofNat 8 (b.toNat / 100), BitVec.ofNat 8 (b.toNat / 10 % 10), BitVec.ofNat 8 (b.toNat % 10)]

/-- V0 to Vx inclusive, in order: x + 1 bytes (42_index_memory R125). -/
def State.regsUpTo (s : State) (x : RegIdx) : List Byte := s.v.toList.take (x.val + 1)

/-- The register file after `V[k] <- MEM[I + k]` for k = 0..x (42_index_memory R126); registers above x keep their
values. The x + 1 writes go to different registers, so they are made at once (log 14). -/
def State.regsLoadedUpTo (s : State) (x : RegIdx) : Vector Byte 16 :=
  Vector.ofFn fun k => if k ≤ x then Memory.read s.mem (s.i.toNat + k.val) else s.reg k

/-- The n rows of a sprite, read at ascending addresses from I (43_display R130, R132). -/
def State.spriteRows (s : State) (n : Fin 16) : List Byte := Memory.readBytes s.mem s.i.toNat n.val

/-- The bit of a sprite row at column offset `col`: bit 7 is the leftmost (43_display R130, decision D15). -/
def spriteBit (row : Byte) (col : Nat) : Bool := row.getLsbD (7 - col)

/-- The framebuffer row of sprite row `row` drawn at `cy`: (cy + row) mod 32 (43_display R132). -/
def pixelRow (cy row : Nat) : Fin 32 := Fin.ofNat 32 (cy + row)

/-- The framebuffer column of sprite column `col` drawn at `cx`: (cx + col) mod 64 (43_display R132). -/
def pixelCol (cx col : Nat) : Fin 64 := Fin.ofNat 64 (cx + col)

end Sys2Proof.Machine
end

