-- ==== Sys2Proof/Machine/ControlFlow.lean ====
section
/-! DEFINITION. The control-flow instructions (40_control_flow R90 to R99). -/

namespace Sys2Proof.Machine

/-- RET (R91): StackUnderflow when SP = 0, otherwise the top return address is popped into PC. SP > 16 is no state of
the machine (log 3). -/
def execRet (s : State) : Host.Outcome State Fault Refusal :=
  if s.sp = 0 then .next (s.raiseIn .ret .stackUnderflow none)
  else if h : s.sp.toNat - 1 < 16 then .next (s.pop h)
  else .fault .stackPointerOutOfRange

/-- JP nnn (R92). -/
def execJp (nnn : Addr) (s : State) : Host.Outcome State Fault Refusal :=
  .next (s.jump (zextAddr nnn))

/-- CALL nnn (R93): StackOverflow when SP = 16, otherwise PC + 2 is pushed and PC goes to nnn. SP > 16 is no state of
the machine (log 3). -/
def execCall (nnn : Addr) (s : State) : Host.Outcome State Fault Refusal :=
  if s.sp = 16 then .next (s.raiseIn (.call nnn) .stackOverflow none)
  else if h : s.sp.toNat < 16 then .next ((s.push h (s.pc + 2)).jump (zextAddr nnn))
  else .fault .stackPointerOutOfRange

/-- SE Vx, kk (R94). -/
def execSeImm (x : RegIdx) (kk : Byte) (s : State) : Host.Outcome State Fault Refusal :=
  .next (s.skipIf (s.reg x == kk))

/-- SNE Vx, kk (R95). -/
def execSneImm (x : RegIdx) (kk : Byte) (s : State) : Host.Outcome State Fault Refusal :=
  .next (s.skipIf (s.reg x != kk))

/-- SE Vx, Vy (R96). -/
def execSeReg (x y : RegIdx) (s : State) : Host.Outcome State Fault Refusal :=
  .next (s.skipIf (s.reg x == s.reg y))

/-- SNE Vx, Vy (R97). -/
def execSneReg (x y : RegIdx) (s : State) : Host.Outcome State Fault Refusal :=
  .next (s.skipIf (s.reg x != s.reg y))

/-- JP V0, nnn (R98): the 16-bit sum, not cut to 12 bits (decision D29). -/
def execJpV0 (nnn : Addr) (s : State) : Host.Outcome State Fault Refusal :=
  .next (s.jump (zextAddr nnn + zextByte (s.reg 0)))

end Sys2Proof.Machine
end

