-- ==== Sys2Proof/Machine/Display.lean ====
section
/-! DEFINITION. The framebuffer instructions and the XOR-blit renderer (43_display R130 to R135). -/

namespace Sys2Proof.Machine

/-- One sprite bit aimed at a pixel: a 1 bit collides with a set pixel and flips it, a 0 bit does nothing (R132). -/
def blitBit (cx cy row : Nat) (bits : Byte) (fc : Framebuffer × Bool) (col : Nat) : Framebuffer × Bool :=
  if spriteBit bits col then
    (Framebuffer.flip fc.1 (pixelRow cy row) (pixelCol cx col),
      fc.2 || Framebuffer.get fc.1 (pixelRow cy row) (pixelCol cx col))
  else fc

/-- The eight bits of one sprite row, columns 0 to 7 (R132). -/
def blitRow (cx cy row : Nat) (bits : Byte) (fc : Framebuffer × Bool) : Framebuffer × Bool :=
  (List.range 8).foldl (blitBit cx cy row bits) fc

/-- The rows of a sprite, numbered from `row` (R132). -/
def blitRows (cx cy row : Nat) : List Byte → Framebuffer × Bool → Framebuffer × Bool
  | [], fc => fc
  | bits :: rest, fc => blitRows cx cy (row + 1) rest (blitRow cx cy row bits fc)

/-- The XOR-blit of a sprite at column cx and row cy: the new framebuffer and the collision (R132, R133). -/
def blit (fb : Framebuffer) (cx cy : Byte) (rows : List Byte) : Framebuffer × Bool :=
  blitRows cx.toNat cy.toNat 0 rows (fb, false)

/-- CLS (R131). -/
def execCls (s : State) : Host.Outcome State Fault Refusal :=
  .next (s.setFb Framebuffer.clear).advance

/-- DRW Vx, Vy, n (R132): the coordinates are read before VF is written; n = 0 draws nothing and writes VF = 0
(decision D14). -/
def execDrw (x y : RegIdx) (n : Fin 16) (s : State) : Host.Outcome State Fault Refusal :=
  s.accessAtI (.drw x y n) n.val
    (((s.setFb (blit s.fb (s.reg x) (s.reg y) (s.spriteRows n)).1).setFlag
      (blit s.fb (s.reg x) (s.reg y) (s.spriteRows n)).2).advance)

end Sys2Proof.Machine
end

