-- ==== Sys2Proof/Machine/Index.lean ====
section
/-! DEFINITION. The index register and the memory load and store instructions (42_index_memory R120 to R127). -/

namespace Sys2Proof.Machine

/-- LD I, nnn (R121). -/
def execLdI (nnn : Addr) (s : State) : Host.Outcome State Fault Refusal :=
  .next (s.setI (zextAddr nnn)).advance

/-- ADD I, Vx (R122): modulo 65536, VF is unchanged (decision D9). -/
def execAddI (x : RegIdx) (s : State) : Host.Outcome State Fault Refusal :=
  .next (s.setI (s.i + zextByte (s.reg x))).advance

/-- LD F, Vx (R123): the glyph of the low nibble of Vx (decision D10). -/
def execLdF (x : RegIdx) (s : State) : Host.Outcome State Fault Refusal :=
  .next (s.setI (glyphAddress (lowNibble (s.reg x)))).advance

/-- LD B, Vx (R124): three decimal digits at I, I + 1, I + 2. -/
def execLdB (x : RegIdx) (s : State) : Host.Outcome State Fault Refusal :=
  s.accessAtI (.ldB x) 3 (s.setMem (Memory.writeBytes s.mem s.i.toNat (decimalDigits (s.reg x)))).advance

/-- LD [I], Vx (R125): V0 to Vx at I to I + x; I is unchanged (decision D13). -/
def execStoreRegs (x : RegIdx) (s : State) : Host.Outcome State Fault Refusal :=
  s.accessAtI (.storeRegs x) (x.val + 1) (s.setMem (Memory.writeBytes s.mem s.i.toNat (s.regsUpTo x))).advance

/-- LD Vx, [I] (R126): V0 to Vx from I to I + x; I is unchanged (decision D13). -/
def execLoadRegs (x : RegIdx) (s : State) : Host.Outcome State Fault Refusal :=
  s.accessAtI (.loadRegs x) (x.val + 1) (s.setRegs (s.regsLoadedUpTo x)).advance

end Sys2Proof.Machine
end

