-- ==== Sys2Proof/Machine/TimersKeys.lean ====
section
/-! DEFINITION. The timer and key instructions and the poll of a waiting engine (44_timers_keys R140 to R146). -/

namespace Sys2Proof.Machine

/-- LD Vx, DT (R140). -/
def execLdVxDt (x : RegIdx) (s : State) : Host.Outcome State Fault Refusal :=
  .next (s.setReg x s.dt).advance

/-- LD DT, Vx (R141). -/
def execLdDtVx (x : RegIdx) (s : State) : Host.Outcome State Fault Refusal :=
  .next (s.setDt (s.reg x)).advance

/-- LD ST, Vx (R142). -/
def execLdStVx (x : RegIdx) (s : State) : Host.Outcome State Fault Refusal :=
  .next (s.setSr (s.reg x)).advance

/-- SKP Vx (R143): skip if the key named by the low nibble of Vx is pressed (decision D11). -/
def execSkp (x : RegIdx) (s : State) : Host.Outcome State Fault Refusal :=
  .next (s.skipIf (s.keyDown (lowNibble (s.reg x))))

/-- SKNP Vx (R144): skip if that key is not pressed (decision D11). -/
def execSknp (x : RegIdx) (s : State) : Host.Outcome State Fault Refusal :=
  .next (s.skipIf (!s.keyDown (lowNibble (s.reg x))))

/-- LD Vx, K (R145): the step that starts the wait; PC does not move. -/
def execLdVxK (x : RegIdx) (s : State) : Host.Outcome State Fault Refusal :=
  .next (s.startWait x)

/-- The poll, a `step` while MODE = AWAIT_KEY (R146): nothing until a press is captured, then its code goes to
V[WAITX], PC advances and the engine runs on. -/
def State.poll (s : State) : State :=
  match s.kp with
  | none => s
  | some k => ((s.setReg s.waitx (keyByte k)).advance).endWait

end Sys2Proof.Machine
end

