-- ==== Sys2Proof/Machine/Step.lean ====
section
/-! DEFINITION. One `step` event (30_encoding R74), and placing an instruction where the next step fetches it. -/

namespace Sys2Proof.Machine

/-- One `step` event (30_encoding R74): nothing when FAULTED (60_exceptions R159), a poll when AWAIT_KEY
(44_timers_keys R146), otherwise fetch, decode and execute, with the faults of the fetch (20_memory R52) and of the
decode (60_exceptions R151) in that order (60_exceptions R156). -/
def step (s : State) : Host.Outcome State Fault Refusal :=
  match s.mode with
  | .faulted => .next s
  | .awaitKey => .next s.poll
  | .running =>
    match s.fetch with
    | .error addr => .next (s.raise .memOutOfBounds none (some addr))
    | .ok op =>
      match decode op with
      | .error _ => .next (s.raise .unknownOpcode (some op) none)
      | .ok ins => exec ins s

/-- The state with a table word stored big-endian at PC (20_memory R52), ready to be fetched: it stands for the load of
a program by `reset(program)` (70_reset_and_hazards R191, log 7). Where the engine waits or is faulted it is set
RUNNING again, and a PC that cannot be fetched from goes to PROG_BASE; from reset only the two bytes change. -/
def State.withFetchWord (s : State) (nbits w : Nat) : State :=
  let pc : Word := if s.pc.toNat + 1 < 4096 then s.pc else 0x0200
  let mem := Memory.writeBytes s.mem pc.toNat [highByte (tableWord nbits w), lowByte (tableWord nbits w)]
  match s.mode with
  | .running => { s with pc := pc, mem := mem }
  | .awaitKey => { s with pc := pc, mem := mem, mode := .running, waitx := 0, kp := none }
  | .faulted => { s with pc := pc, mem := mem, mode := .running, fault := none }

end Sys2Proof.Machine
end

