-- ==== Sys2Proof/Machine/Events.lean ====
section
/-! DEFINITION. The interface (00_scope R9, 60_exceptions R174): the `tick`, `key` and `reset` events beside `step`, runs
over any sequence of events, finite or infinite, and their fairness (00_scope R10, 70_reset_and_hazards R198), and the outputs SOUND and STATUS. -/

namespace Sys2Proof.Machine

/-- The `tick` event (60_exceptions R166): each timer falls by one while nonzero; nothing when FAULTED (R159). -/
def State.tick (s : State) : State :=
  match s.mode with
  | .faulted => s
  | _ => { s with dt := if s.dt = 0 then 0 else s.dt - 1, sr := if s.sr = 0 then 0 else s.sr - 1 }

/-- The press capture of `Fx0A` (60_exceptions R171): the first unpressed-to-pressed transition while MODE = AWAIT_KEY. -/
def State.capturedBy (s : State) (code : KeyCode) (pressed : Bool) : Option KeyCode :=
  if s.mode = .awaitKey ∧ pressed = true ∧ s.keyDown code = false ∧ s.kp = none then some code else s.kp

/-- The `key(code, pressed)` event (60_exceptions R170): KP perhaps, then the latch; nothing when FAULTED (R159). -/
def State.keyEvent (s : State) (code : KeyCode) (pressed : Bool) : State :=
  match s.mode with
  | .faulted => s
  | _ => { s with kp := s.capturedBy code pressed, key := s.key.set code.val pressed }

/-- MEM after reset: RESET_FILL, then the font, then the program cut to PROG_MAX bytes (70_reset_and_hazards R190,
R191). -/
def bootMemory (font : Vector Byte 80) (program : List Byte) : Memory :=
  Memory.writeBytes (Memory.writeBytes [] 0 font.toList) 0x200
    (program.take 3584)

/-- `reset(program)` for a machine whose FONT_TABLE is `font` (70_reset_and_hazards R190, R191; 20_memory R58). -/
def State.boot (font : Vector Byte 80) (program : List Byte) : State :=
  { State.reset with mem := bootMemory font program }

/-- The input events (00_scope R9). -/
inductive Event where
  | step
  | tick
  | key (code : KeyCode) (pressed : Bool)
  | reset (program : List Byte)
  deriving DecidableEq, Repr

/-- One event, applied whole (00_scope R10). A reset keeps only the model's own draw counter, so that the bytes drawn
after it are fresh (log 4). -/
def applyEvent (e : Event) (s : State) : Host.Outcome State Fault Refusal :=
  match e with
  | .step => step s
  | .tick => .next s.tick
  | .key code pressed => .next (s.keyEvent code pressed)
  | .reset program => .next { State.boot Config.fontTable program with draws := s.draws }

/-- A sequence of events in the order given; every order is a run of the machine (70_reset_and_hazards R198). -/
def runEvents : List Event → State → Host.Outcome State Fault Refusal
  | [], s => .next s
  | e :: es, s =>
    match applyEvent e s with
    | .next t => runEvents es t
    | .fault r => .fault r
    | .refused r => .refused r

/-- Which event comes when, without end: the two clocks and the input source (70_reset_and_hazards R198). -/
abbrev Schedule := Nat → Event

/-- An infinite run: state n + 1 is state n after event n. Every schedule is admitted (70_reset_and_hazards R198). -/
def IsRun (schedule : Schedule) (trace : Nat → State) : Prop :=
  ∀ n, applyEvent (schedule n) (trace n) = .next (trace (n + 1))

/-- The event comes again and again: after every moment there is one more. -/
def Recurs (e : Event) (schedule : Schedule) : Prop := ∀ m, ∃ n, m ≤ n ∧ schedule n = e

/-- The fairness of 70_reset_and_hazards R198 (decision D27): the instruction clock keeps stepping and the timer clock
keeps ticking. Both events can always occur, so weak fairness is that each recurs; nothing is asked of keys. -/
def Fair (schedule : Schedule) : Prop := Recurs .step schedule ∧ Recurs .tick schedule

/-- The output SOUND = `SR > 0` (60_exceptions R169). -/
def State.sound (s : State) : Bool := decide (0 < s.sr)

/-- The output STATUS (60_exceptions R173). -/
inductive Status where
  | ok
  | blocked
  | fault (record : FaultRecord)
  deriving DecidableEq, Repr

/-- The result of the last `step` as a function of the state (60_exceptions R173): FAULT while a record is held, BLOCKED
while the engine waits (its last step was `Fx0A` or a poll that found no press), otherwise OK. DEDUCED, safe, log 11. -/
def State.status (s : State) : Status :=
  match s.fault with
  | some record => .fault record
  | none => if s.mode = .awaitKey then .blocked else .ok

end Sys2Proof.Machine
end

