-- ==== Sys2Proof/Safety.lean ====
section
/-! DEFINITION. The words statements are made in: the pieces of state, what each instruction may write, completing, the
sprite's footprint, and the invariant of the machine. -/

namespace Sys2Proof.Machine

/-! ### Pieces of state and frames -/

/-- Every piece of state of 10_state R20, down to the register, slot, byte, pixel and key; `draws` is the model's own. -/
inductive Component where
  | v (x : RegIdx)
  | i
  | pc
  | sp
  | stackSlot (k : Fin 16)
  | dt
  | sr
  | memByte (a : Nat)
  | pixel (r : Fin 32) (c : Fin 64)
  | keyFlag (k : KeyCode)
  | mode
  | waitx
  | kp
  | fault
  | draws
  deriving DecidableEq, Repr

/-- The piece of state is the same in both states. -/
def Component.same (s t : State) : Component → Prop
  | .v x => t.reg x = s.reg x
  | .i => t.i = s.i
  | .pc => t.pc = s.pc
  | .sp => t.sp = s.sp
  | .stackSlot k => t.stack[k.val] = s.stack[k.val]
  | .dt => t.dt = s.dt
  | .sr => t.sr = s.sr
  | .memByte a => Memory.read t.mem a = Memory.read s.mem a
  | .pixel r c => Framebuffer.get t.fb r c = Framebuffer.get s.fb r c
  | .keyFlag k => t.keyDown k = s.keyDown k
  | .mode => t.mode = s.mode
  | .waitx => t.waitx = s.waitx
  | .kp => t.kp = s.kp
  | .fault => t.fault = s.fault
  | .draws => t.draws = s.draws

/-- Everything is unchanged from `s` to `t` but what `written` admits. -/
def UnchangedBut (written : Component → Prop) (s t : State) : Prop := ∀ c, ¬ written c → Component.same s t c

/-- Everything is unchanged from `s` to `t` but the listed pieces. -/
def OnlyChanged (written : List Component) (s t : State) : Prop := UnchangedBut (· ∈ written) s t

/-- The instruction answers a next state, and that state has the property. -/
def Completes (ins : Instr) (s : State) (property : State → Prop) : Prop :=
  ∃ t, exec ins s = .next t ∧ property t

/-- Pixel (r, c) lies under a 1 bit of the n-row sprite at I drawn at (V[x], V[y]) (43_display R132): row `row` < n is the
byte at I + row, column `col` its bit 7 - col, aimed at row (V[y] + row) mod 32 and column (V[x] + col) mod 64. -/
def SpriteCovers (s : State) (x y : RegIdx) (n : Fin 16) (r : Fin 32) (c : Fin 64) : Prop :=
  ∃ row col : Nat, row < n.val ∧ col < 8 ∧
    (Memory.read s.mem (s.i.toNat + row)).getLsbD (7 - col) = true ∧
    r.val = ((s.reg y).toNat + row) % 32 ∧ c.val = ((s.reg x).toNat + col) % 64

/-- What an instruction may write besides PC when it takes no fault (the "written" lines of rules R91 to R145). -/
def mayWrite (ins : Instr) (s : State) (c : Component) : Prop :=
  match ins with
  | .cls => ∃ r k, c = .pixel r k
  | .ret => c = .sp
  | .jp _ => False
  | .call _ => c = .sp ∨ ∃ k : Fin 16, k.val = s.sp.toNat ∧ c = .stackSlot k
  | .seImm _ _ => False
  | .sneImm _ _ => False
  | .seReg _ _ => False
  | .ldImm x _ => c = .v x
  | .addImm x _ => c = .v x
  | .ldReg x _ => c = .v x
  | .orReg x _ => c = .v x
  | .andReg x _ => c = .v x
  | .xorReg x _ => c = .v x
  | .addReg x _ => c = .v x ∨ c = .v VF
  | .sub x _ => c = .v x ∨ c = .v VF
  | .shr x _ => c = .v x ∨ c = .v VF
  | .subn x _ => c = .v x ∨ c = .v VF
  | .shl x _ => c = .v x ∨ c = .v VF
  | .sneReg _ _ => False
  | .ldI _ => c = .i
  | .jpV0 _ => False
  | .rnd x _ => c = .v x ∨ c = .draws
  | .drw x y n => c = .v VF ∨ ∃ r k, c = .pixel r k ∧ SpriteCovers s x y n r k
  | .skp _ => False
  | .sknp _ => False
  | .ldVxDt x => c = .v x
  | .ldVxK _ => c = .mode ∨ c = .waitx ∨ c = .kp
  | .ldDtVx _ => c = .dt
  | .ldStVx _ => c = .sr
  | .addI _ => c = .i
  | .ldF _ => c = .i
  | .ldB _ => ∃ k, k < 3 ∧ c = .memByte (s.i.toNat + k)
  | .storeRegs x => ∃ k, k ≤ x.val ∧ c = .memByte (s.i.toNat + k)
  | .loadRegs x => ∃ k, k ≤ x ∧ c = .v k

/-- The frame of an instruction that took no fault. -/
def FrameKept (ins : Instr) (s t : State) : Prop :=
  UnchangedBut (fun c => c = .pc ∨ mayWrite ins s c) s t

/-- How many bytes at I an instruction accesses (42_index_memory R120, 60_exceptions R154). -/
def bytesAtI : Instr → Nat
  | .ldB _ => 3
  | .storeRegs x => x.val + 1
  | .loadRegs x => x.val + 1
  | .drw _ _ n => n.val
  | _ => 0

/-- The instructions that can take a fault: RET, CALL, and those that access a byte at I (60_exceptions R150, R156). -/
def mayFault : Instr → Bool
  | .ret => true
  | .call _ => true
  | ins => decide (0 < bytesAtI ins)

/-- The six instructions that write VF as a flag (10_state R23). -/
def writesFlag : Instr → Bool
  | .addReg _ _ => true
  | .sub _ _ => true
  | .shr _ _ => true
  | .subn _ _ => true
  | .shl _ _ => true
  | .drw _ _ _ => true
  | _ => false

/-- The address MemOutOfBounds records for an access at `base`: the lowest one out of range (60_exceptions R154). -/
def faultingAddress (base : Word) : Word := if 4096 ≤ base.toNat then base else 0x1000

/-- The state after `raise` (60_exceptions R157): the fault record and the mode, nothing else. -/
def faultedWith (s : State) (kind : FaultKind) (opcode addr : Option Word) : State :=
  { s with mode := .faulted, fault := some { kind := kind, pc := s.pc, opcode := opcode, addr := addr } }

/-! ### The input latch over a run -/

/-- The latch after a sequence of events, each key event as 60_exceptions R170 applies it outside FAULTED. -/
def latchAfter : Vector Bool 16 → List Event → Vector Bool 16
  | key, [] => key
  | key, .key code pressed :: es => latchAfter (key.set code.val pressed) es
  | key, .step :: es => latchAfter key es
  | key, .tick :: es => latchAfter key es
  | _, .reset _ :: es => latchAfter State.reset.key es

/-- No key goes from unpressed to pressed in the sequence, and the machine is not reset in it: a repeated press of a key
already down is no transition (60_exceptions R171). -/
def noNewPress : Vector Bool 16 → List Event → Bool
  | _, [] => true
  | key, .key code pressed :: es => (!pressed || key[code.val]) && noNewPress (key.set code.val pressed) es
  | key, .step :: es => noNewPress key es
  | key, .tick :: es => noNewPress key es
  | _, .reset _ :: _ => false

/-- In this state a `step` event runs an instruction with the property (30_encoding R74). -/
def Executes (s : State) (property : Instr → Prop) : Prop :=
  s.mode = .running ∧ ∃ op ins, s.fetch = .ok op ∧ decode op = .ok ins ∧ property ins

/-! ### The invariant -/

/-- The shape of a fault record (60_exceptions R155): an address exactly for MemOutOfBounds, no opcode only for a fetch
fault, and the PC of the faulting step, which PC still holds (R157, R159). -/
def FaultRecord.WellShaped (record : FaultRecord) (pc : Word) : Prop :=
  record.pc = pc ∧ (record.addr.isSome ↔ record.kind = .memOutOfBounds) ∧
    (record.opcode = none → record.kind = .memOutOfBounds)

/-- What holds of the machine between events: canonical memory, SP in 0..16 (10_state R29), live return addresses and
PC in range (R28), a wait only where a fetch succeeded, WAITX and KP cleared outside a wait (R35), and a fault record
exactly in FAULTED (R37). -/
structure State.Inv (s : State) : Prop where
  memory : Memory.wf s.mem
  stackPointer : s.sp.toNat ≤ 16
  returnAddresses : ∀ k : Fin 16, k.val < s.sp.toNat → (s.stack[k.val]).toNat ≤ 4096
  programCounter : s.pc.toNat ≤ 0x10FE
  waitingCounter : s.mode = .awaitKey → s.pc.toNat ≤ 4094
  noWait : s.mode ≠ .awaitKey → s.waitx = 0 ∧ s.kp = none
  faultHeld : s.mode = .faulted ↔ s.fault.isSome = true
  faultShape : ∀ record, s.fault = some record → FaultRecord.WellShaped record s.pc

/-- No fault or refusal of the model: the step answers a next state (93_implementation_defined: "There is no **stuck**
case in this spec"). -/
def SafeStep (s : State) : Prop := ∃ t, step s = .next t

end Sys2Proof.Machine
end

