-- ==== Sys2Proof/Certificates/Slice0/Obligations.lean ====
section
/-! DEFINITION. The statements for the provers, from the numbered rules of spec/. Where a clause rests on a decision (D<n>)
or a general-knowledge passage (GK<n>) that the spec marks as its own, or on a choice of the model (log <n>), the
docstring says so and the entry's basis is derived. -/

open Sys2Proof Sys2Proof.Machine

/-! ### Encoding and decoding (30_encoding) -/

/-- Eight words written out bit by bit from 30_encoding R71, R72 and R75, of every format, decode to the instructions
they stand for, and the word 0x5001 is rejected by name (R76, 90_conflicts C2, 95_test_vectors S12). A sanity
statement. -/
def Obligations.WrittenOutWordsDecode : Prop :=
  decode 0b0000000011101110#16 = .ok .ret ∧
  decode 0b0010101010111100#16 = .ok (.call 0xABC#12) ∧
  decode 0b0011010100010010#16 = .ok (.seImm 5 0x12#8) ∧
  decode 0b1000101001010111#16 = .ok (.subn 10 5) ∧
  decode 0b1001000111100000#16 = .ok (.sneReg 1 14) ∧
  decode 0b1101000100100101#16 = .ok (.drw 1 2 5) ∧
  decode 0b1110001110100001#16 = .ok (.sknp 3) ∧
  decode 0b1111101101100101#16 = .ok (.loadRegs 11) ∧
  decode 0b0101000000000001#16 = .error (.unknownOpcode 0x5001#16)

/-- Decoding the word of any instruction, with every operand at every value, gives the instruction back (30_encoding
R71, R75). -/
def Obligations.DecodeUndoesEncode : Prop := ∀ ins : Instr, decode (encode ins) = .ok ins

/-- Encoding what a word decodes to gives the word back: no bit of a legal word is dropped (30_encoding R71, R75). -/
def Obligations.EncodeUndoesDecode : Prop := ∀ (op : Word) (ins : Instr), decode op = .ok ins → encode ins = op

/-- The decoder accepts exactly the words that match a row of the opcode map and rejects every other by name
(30_encoding R75, R76; families 5 and 9: C2, D5; family 0: D4). -/
def Obligations.DecodeAcceptsExactlyMappedWords : Prop :=
  ∀ op : Word,
    (wellFormedWord op = true → ∃ ins, decode op = .ok ins) ∧
    (wellFormedWord op = false → decode op = .error (.unknownOpcode op))

/-- The rows of the opcode map do not overlap (30_encoding R75). -/
def Obligations.OpcodeRowsNeverOverlap : Prop :=
  opcodeMap.Pairwise fun row other => ∀ op : Word, ¬ (row.covers op = true ∧ other.covers op = true)

/-- The illegal words are those of the table of 30_encoding R76, family by family (decisions D3, D4, D5). -/
def Obligations.IllegalWordsAreThoseListed : Prop :=
  ∀ op : Word, wellFormedWord op = false ↔
    (familyField op = 0x0 ∧ op ≠ 0x00E0 ∧ op ≠ 0x00EE) ∨
    (familyField op = 0x5 ∧ lowNibbleField op ≠ 0) ∨
    (familyField op = 0x8 ∧ lowNibbleField op ∈ [0x8#4, 0x9#4, 0xA#4, 0xB#4, 0xC#4, 0xD#4, 0xF#4]) ∨
    (familyField op = 0x9 ∧ lowNibbleField op ≠ 0) ∨
    (familyField op = 0xE ∧ kkField op ∉ [0x9E#8, 0xA1#8]) ∨
    (familyField op = 0xF ∧
      kkField op ∉ [0x07#8, 0x0A#8, 0x15#8, 0x18#8, 0x1E#8, 0x29#8, 0x33#8, 0x55#8, 0x65#8])

/-! ### The step (30_encoding R74) -/

/-- In RUNNING, where the two bytes at PC decode to an instruction, the step is that instruction's execution and
nothing around it (30_encoding R74). -/
def Obligations.StepRunsDecodedInstruction : Prop :=
  ∀ (s : State) (ins : Instr), s.mode = .running → s.pc.toNat ≤ 4094 →
    decode (wordOfBytes (Memory.read s.mem s.pc.toNat) (Memory.read s.mem (s.pc.toNat + 1))) = .ok ins →
    step s = exec ins s

/-- The fetch (20_memory R52; odd PC: D19; the address reported: D17): big-endian, two bytes, at any PC up to 4094, odd
ones too; above that the step raises MemOutOfBounds with no opcode, at PC when PC ≥ 4096 and at 4096 when PC = 4095. -/
def Obligations.FetchIsBigEndianAndBounded : Prop :=
  ∀ s : State,
    (s.pc.toNat ≤ 4094 → ∃ op, s.fetch = .ok op ∧
      op.toNat = 256 * (Memory.read s.mem s.pc.toNat).toNat + (Memory.read s.mem (s.pc.toNat + 1)).toNat) ∧
    (s.pc.toNat = 4095 → s.mode = .running →
      step s = .next (faultedWith s .memOutOfBounds none (some 0x1000))) ∧
    (4096 ≤ s.pc.toNat → s.mode = .running →
      step s = .next (faultedWith s .memOutOfBounds none (some s.pc)))

/-- UnknownOpcode (60_exceptions R151; the words of the map: D3, D4, D5): a fetched word that matches no row faults
with the word and PC recorded and nothing else changed; a step that fetches a word of the map records no UnknownOpcode. -/
def Obligations.IllegalWordRaisesUnknownOpcode : Prop :=
  ∀ (s : State) (op : Word), s.mode = .running → s.fetch = .ok op →
    (wellFormedWord op = false → step s = .next (faultedWith s .unknownOpcode (some op) none)) ∧
    (wellFormedWord op = true → s.fault = none →
      ∀ t record, step s = .next t → t.fault = some record → record.kind ≠ .unknownOpcode)

/-- After a fault (60_exceptions R159; decision D18): no sequence of step, tick and key events changes anything, and a
reset leaves FAULTED. -/
def Obligations.FaultedMachineIsFrozen : Prop :=
  ∀ s : State, s.mode = .faulted →
    (∀ events : List Event, (∀ e ∈ events, ∀ program, e ≠ .reset program) → runEvents events s = .next s) ∧
    (∀ program, ∃ t, applyEvent (.reset program) s = .next t ∧ t.mode = .running ∧ t.fault = none)

/-- Self-modifying code (20_memory R64, decision D26): bytes a LD [I], Vx stored are what a fetch of those
addresses reads. -/
def Obligations.StoredBytesAreFetched : Prop :=
  ∀ (s t : State) (x : RegIdx) (j : Fin 16) (hj : j.val + 1 < 16), Memory.wf s.mem →
    exec (.storeRegs x) s = .next t → s.mode ≠ .faulted → t.mode ≠ .faulted → j.val + 1 ≤ x.val →
    (t.jump (s.i + BitVec.ofNat 16 j.val)).fetch
      = .ok (wordOfBytes (s.reg j) (s.reg ⟨j.val + 1, hj⟩))

/-! ### Faults (60_exceptions) -/

/-- Fault entry is precise (60_exceptions R157, R158; decisions D16, D17): an instruction that takes a fault changes
MODE and FAULT and nothing else, and records PC and its own word. -/
def Obligations.FaultEntryIsPrecise : Prop :=
  ∀ (ins : Instr) (s t : State), s.mode ≠ .faulted → exec ins s = .next t → t.mode = .faulted →
    ∃ kind addr, t = faultedWith s kind (some (encode ins)) addr

/-- Each instruction raises only its own fault, and only on its condition (60_exceptions R150, R156; D6, D17): CALL
only StackOverflow at SP = 16, RET only StackUnderflow at SP = 0, the four memory instructions only MemOutOfBounds. -/
def Obligations.EachInstructionRaisesOnlyItsOwnFault : Prop :=
  ∀ (ins : Instr) (s t : State), s.mode ≠ .faulted → exec ins s = .next t → t.mode = .faulted →
    (∃ nnn, ins = .call nnn ∧ s.sp = 16 ∧ t.fault = some ⟨.stackOverflow, s.pc, some (encode ins), none⟩) ∨
    (ins = .ret ∧ s.sp = 0 ∧ t.fault = some ⟨.stackUnderflow, s.pc, some (encode ins), none⟩) ∨
    (0 < bytesAtI ins ∧ 4095 < s.i.toNat + bytesAtI ins - 1 ∧
      t.fault = some ⟨.memOutOfBounds, s.pc, some (encode ins), some (faultingAddress s.i)⟩)

/-- StackOverflow (60_exceptions R152; entry R157, R158; SP counts entries, capacity 16: D6; precise: D16; the record:
R155, D17): CALL at SP = 16 records the opcode and PC, no address, and changes nothing else. -/
def Obligations.CallAtCapacityOverflows : Prop :=
  ∀ (s : State) (nnn : Addr), s.sp = 16 →
    exec (.call nnn) s = .next (faultedWith s .stackOverflow (some (encode (.call nnn))) none)

/-- StackUnderflow (60_exceptions R153; entry R157, R158; SP = 0 is empty: D6; precise: D16; the record: R155, D17): RET
at SP = 0 records the opcode 0x00EE and PC, no address, and changes nothing else. -/
def Obligations.ReturnWhenEmptyUnderflows : Prop :=
  ∀ s : State, s.sp = 0 → exec .ret s = .next (faultedWith s .stackUnderflow (some 0x00EE) none)

/-- MemOutOfBounds of LD B, LD [I], LD Vx,[I] and DRW with n > 0 (60_exceptions R154; the address reported: D17): where
the last byte lies above 4095 the instruction faults at I, or at 4096 when I is inside memory. -/
def Obligations.MemoryRangeFaults : Prop :=
  ∀ (s : State) (ins : Instr), 0 < bytesAtI ins → 4095 < s.i.toNat + bytesAtI ins - 1 →
    exec ins s = .next (faultedWith s .memOutOfBounds (some (encode ins)) (some (faultingAddress s.i)))

/-- The model's choice (log 3): the model's only stop is CALL and RET where SP > 16, a value 10_state R20 and R29 rule
out; every other execution answers a next state, and no instruction is refused. -/
def Obligations.OnlyStackPointerAboveSixteenStops : Prop :=
  (∀ s : State, 16 < s.sp.toNat →
    exec .ret s = .fault .stackPointerOutOfRange ∧ ∀ nnn, exec (.call nnn) s = .fault .stackPointerOutOfRange) ∧
  (∀ (s : State) (ins : Instr), s.sp.toNat ≤ 16 → ∃ t, exec ins s = .next t) ∧
  (∀ (s : State) (ins : Instr), ins ≠ .ret → (∀ nnn, ins ≠ .call nnn) → ∃ t, exec ins s = .next t)

/-! ### Control flow (40_control_flow) -/

/-- JP and JP V0 (40_control_flow R92, R98; GK2, GK6, D29): PC is nnn, or nnn + V0 as a sum that never wraps. -/
def Obligations.JumpsReachTheirTargets : Prop :=
  ∀ (s : State) (nnn : Addr),
    Completes (.jp nnn) s (fun t => t.pc.toNat = nnn.toNat ∧ OnlyChanged [.pc] s t) ∧
    Completes (.jpV0 nnn) s (fun t =>
      t.pc.toNat = nnn.toNat + (s.reg 0).toNat ∧ t.pc.toNat ≤ 0x10FE ∧ OnlyChanged [.pc] s t)

/-- CALL (40_control_flow R93; decision D6): PC + 2 goes to the next free slot, SP counts it, PC is nnn. -/
def Obligations.CallPushesReturnAddress : Prop :=
  ∀ (s : State) (nnn : Addr) (h : s.sp.toNat < 16),
    Completes (.call nnn) s (fun t =>
      t.stack[s.sp.toNat] = s.pc + 2 ∧ t.sp.toNat = s.sp.toNat + 1 ∧ t.pc.toNat = nnn.toNat ∧
      OnlyChanged [.pc, .sp, .stackSlot ⟨s.sp.toNat, h⟩] s t)

/-- RET (40_control_flow R91; decision D6): PC is the most recent return address, SP is one less, the slot keeps its
value. -/
def Obligations.ReturnPopsReturnAddress : Prop :=
  ∀ (s : State) (k : Fin 16), s.sp.toNat = k.val + 1 →
    Completes .ret s (fun t =>
      t.pc = s.stack[k.val] ∧ t.sp.toNat = k.val ∧ OnlyChanged [.pc, .sp] s t)

/-- A CALL and then a RET continue after the CALL with SP as before (40_control_flow R91, R93; 95_test_vectors S8). -/
def Obligations.CallThenReturnResumes : Prop :=
  ∀ (s : State) (nnn : Addr) (h : s.sp.toNat < 16),
    Completes (.call nnn) s (fun t => Completes .ret t (fun u =>
      u.pc = s.pc + 2 ∧ u.sp = s.sp ∧ OnlyChanged [.pc, .stackSlot ⟨s.sp.toNat, h⟩] s u))

/-- SE Vx, kk (40_control_flow R94): PC + 4 when Vx = kk, else PC + 2; no flag, no fault. -/
def Obligations.SkipIfEqualImmediate : Prop :=
  ∀ (s : State) (x : RegIdx) (kk : Byte),
    exec (.seImm x kk) s = .next { s with pc := if s.reg x = kk then s.pc + 4 else s.pc + 2 }

/-- The other five skips (40_control_flow R95, R96, R97, R99; 44_timers_keys R143, R144; conditions GK3, GK7; key code
D11): PC + 4 when the condition holds, else PC + 2, and nothing else changes. -/
def Obligations.SkipsFollowTheirConditions : Prop :=
  ∀ (s : State) (x y : RegIdx) (kk : Byte),
    exec (.sneImm x kk) s = .next { s with pc := if s.reg x ≠ kk then s.pc + 4 else s.pc + 2 } ∧
    exec (.seReg x y) s = .next { s with pc := if s.reg x = s.reg y then s.pc + 4 else s.pc + 2 } ∧
    exec (.sneReg x y) s = .next { s with pc := if s.reg x ≠ s.reg y then s.pc + 4 else s.pc + 2 } ∧
    (∀ k : KeyCode, k.val = (s.reg x).toNat % 16 →
      exec (.skp x) s = .next { s with pc := if s.key[k.val] = true then s.pc + 4 else s.pc + 2 } ∧
      exec (.sknp x) s = .next { s with pc := if s.key[k.val] = false then s.pc + 4 else s.pc + 2 })

/-! ### Registers (41_alu) -/

/-- LD Vx, kk (41_alu R101). -/
def Obligations.LoadImmediateLoads : Prop :=
  ∀ (s : State) (x : RegIdx) (kk : Byte),
    Completes (.ldImm x kk) s (fun t => t.reg x = kk ∧ t.pc = s.pc + 2 ∧ OnlyChanged [.pc, .v x] s t)

/-- ADD Vx, kk (41_alu R102): modulo 256; VF is not changed by the carry. -/
def Obligations.AddImmediateWrapsWithoutFlag : Prop :=
  ∀ (s : State) (x : RegIdx) (kk : Byte),
    Completes (.addImm x kk) s (fun t =>
      (t.reg x).toNat = ((s.reg x).toNat + kk.toNat) % 256 ∧ t.pc = s.pc + 2 ∧ OnlyChanged [.pc, .v x] s t)

/-- LD Vx, Vy and the logic instructions (41_alu R103 to R106; meanings GK4; VF unchanged unless x = F: D8), bit by
bit. -/
def Obligations.CopyAndLogicAreBitwise : Prop :=
  ∀ (s : State) (x y : RegIdx),
    Completes (.ldReg x y) s (fun t => t.reg x = s.reg y ∧ t.pc = s.pc + 2 ∧ OnlyChanged [.pc, .v x] s t) ∧
    Completes (.orReg x y) s (fun t =>
      (∀ b, (t.reg x).getLsbD b = true ↔ (s.reg x).getLsbD b = true ∨ (s.reg y).getLsbD b = true) ∧
      t.pc = s.pc + 2 ∧ OnlyChanged [.pc, .v x] s t) ∧
    Completes (.andReg x y) s (fun t =>
      (∀ b, (t.reg x).getLsbD b = true ↔ (s.reg x).getLsbD b = true ∧ (s.reg y).getLsbD b = true) ∧
      t.pc = s.pc + 2 ∧ OnlyChanged [.pc, .v x] s t) ∧
    Completes (.xorReg x y) s (fun t =>
      (∀ b, (t.reg x).getLsbD b = true ↔ ¬ ((s.reg x).getLsbD b = true ↔ (s.reg y).getLsbD b = true)) ∧
      t.pc = s.pc + 2 ∧ OnlyChanged [.pc, .v x] s t)

/-- ADD Vx, Vy (41_alu R107; flag last: D7): the low 8 bits of the sum; VF = 1 exactly when the sum exceeds 255,
written last, so with x = F only the flag is left. -/
def Obligations.AddSetsCarry : Prop :=
  ∀ (s : State) (x y : RegIdx),
    Completes (.addReg x y) s (fun t =>
      (x ≠ VF → (t.reg x).toNat = ((s.reg x).toNat + (s.reg y).toNat) % 256) ∧
      t.reg VF = (if 255 < (s.reg x).toNat + (s.reg y).toNat then 1 else 0) ∧
      t.pc = s.pc + 2 ∧ OnlyChanged [.pc, .v x, .v VF] s t)

/-- SUB Vx, Vy (41_alu R108; 90_conflicts C7; flag last: D7): Vx - Vy modulo 256; VF = 1 exactly when Vx is strictly
greater, written last. -/
def Obligations.SubtractSetsStrictlyGreater : Prop :=
  ∀ (s : State) (x y : RegIdx),
    Completes (.sub x y) s (fun t =>
      (x ≠ VF → (t.reg x).toNat = ((s.reg x).toNat + 256 - (s.reg y).toNat) % 256) ∧
      t.reg VF = (if (s.reg y).toNat < (s.reg x).toNat then 1 else 0) ∧
      t.pc = s.pc + 2 ∧ OnlyChanged [.pc, .v x, .v VF] s t)

/-- SHR Vx (41_alu R109; flag last: D7): Vx halved, whatever y is; VF = the old bit 0, written last. -/
def Obligations.ShiftRightShiftsOutBitZero : Prop :=
  ∀ (s : State) (x y : RegIdx),
    Completes (.shr x y) s (fun t =>
      (x ≠ VF → (t.reg x).toNat = (s.reg x).toNat / 2) ∧
      (t.reg VF).toNat = (s.reg x).toNat % 2 ∧
      t.pc = s.pc + 2 ∧ OnlyChanged [.pc, .v x, .v VF] s t)

/-- SUBN Vx, Vy (41_alu R110; operand order GK17; flag last: D7): Vy - Vx modulo 256; VF = 1 exactly when Vy is
strictly greater, written last. -/
def Obligations.ReverseSubtractSetsStrictlyGreater : Prop :=
  ∀ (s : State) (x y : RegIdx),
    Completes (.subn x y) s (fun t =>
      (x ≠ VF → (t.reg x).toNat = ((s.reg y).toNat + 256 - (s.reg x).toNat) % 256) ∧
      t.reg VF = (if (s.reg x).toNat < (s.reg y).toNat then 1 else 0) ∧
      t.pc = s.pc + 2 ∧ OnlyChanged [.pc, .v x, .v VF] s t)

/-- SHL Vx (41_alu R111; flag last: D7): Vx doubled modulo 256, whatever y is; VF = the old bit 7, written last. -/
def Obligations.ShiftLeftShiftsOutBitSeven : Prop :=
  ∀ (s : State) (x y : RegIdx),
    Completes (.shl x y) s (fun t =>
      (x ≠ VF → (t.reg x).toNat = 2 * (s.reg x).toNat % 256) ∧
      (t.reg VF).toNat = (s.reg x).toNat / 128 ∧
      t.pc = s.pc + 2 ∧ OnlyChanged [.pc, .v x, .v VF] s t)

/-- RND Vx, kk (41_alu R112; decision D25): the drawn byte masked by kk, with bits outside kk 0. The byte is the free
value of log 4: the statement holds for every value of it. -/
def Obligations.RandomByteIsMasked : Prop :=
  ∀ (s : State) (x : RegIdx) (kk : Byte),
    Completes (.rnd x kk) s (fun t =>
      (∀ b, (t.reg x).getLsbD b = true ↔ (Config.randomByte s.draws).getLsbD b = true ∧ kk.getLsbD b = true) ∧
      (kk = 0 → t.reg x = 0) ∧
      t.pc = s.pc + 2 ∧ s.draws < t.draws ∧ OnlyChanged [.pc, .v x, .draws] s t)

/-- VF as a flag (10_state R23, R24; D7, D8, D9, D30): the six flag instructions leave VF at exactly 0x00 or 0x01 even
when they name VF as their result, and no other instruction changes VF unless it names register F as a destination. -/
def Obligations.OnlySixInstructionsWriteTheFlag : Prop :=
  ∀ (ins : Instr) (s t : State), exec ins s = .next t → t.mode ≠ .faulted →
    (writesFlag ins = true → t.reg VF = 0 ∨ t.reg VF = 1) ∧
    (writesFlag ins = false → t.reg VF ≠ s.reg VF →
      (∃ kk, ins = .ldImm VF kk) ∨ (∃ kk, ins = .addImm VF kk) ∨ (∃ y, ins = .ldReg VF y) ∨
      (∃ y, ins = .orReg VF y) ∨ (∃ y, ins = .andReg VF y) ∨ (∃ y, ins = .xorReg VF y) ∨
      (∃ kk, ins = .rnd VF kk) ∨ ins = .ldVxDt VF ∨ ins = .loadRegs VF)

/-! ### Index and memory (42_index_memory) -/

/-- LD I, ADD I and LD F (42_index_memory R121, R122, R123; GK5, GK9, GK10; D9, D10): I is nnn, the sum modulo 65536,
or 5 times the low nibble; VF is unchanged. -/
def Obligations.IndexRegisterWrites : Prop :=
  ∀ (s : State) (x : RegIdx) (nnn : Addr),
    Completes (.ldI nnn) s (fun t => t.i.toNat = nnn.toNat ∧ t.pc = s.pc + 2 ∧ OnlyChanged [.pc, .i] s t) ∧
    Completes (.addI x) s (fun t =>
      t.i.toNat = (s.i.toNat + (s.reg x).toNat) % 65536 ∧ t.pc = s.pc + 2 ∧ OnlyChanged [.pc, .i] s t) ∧
    Completes (.ldF x) s (fun t =>
      t.i.toNat = 5 * ((s.reg x).toNat % 16) ∧ t.pc = s.pc + 2 ∧ OnlyChanged [.pc, .i] s t)

/-- LD B, Vx (42_index_memory R124; no partial write: D16; the address reported: D17): hundreds, tens and ones at I, I
+ 1, I + 2; when I > 4093 MemOutOfBounds and no byte is written. -/
def Obligations.DecimalDigitsAreStored : Prop :=
  ∀ (s : State) (x : RegIdx), Memory.wf s.mem →
    (s.i.toNat ≤ 4093 → Completes (.ldB x) s (fun t =>
      (Memory.read t.mem s.i.toNat).toNat = (s.reg x).toNat / 100 ∧
      (Memory.read t.mem (s.i.toNat + 1)).toNat = (s.reg x).toNat / 10 % 10 ∧
      (Memory.read t.mem (s.i.toNat + 2)).toNat = (s.reg x).toNat % 10 ∧
      t.pc = s.pc + 2 ∧
      OnlyChanged [.pc, .memByte s.i.toNat, .memByte (s.i.toNat + 1), .memByte (s.i.toNat + 2)] s t)) ∧
    (4093 < s.i.toNat → exec (.ldB x) s
      = .next (faultedWith s .memOutOfBounds (some (encode (.ldB x))) (some (faultingAddress s.i))))

/-- LD [I], Vx (42_index_memory R125; I unchanged: D13): V0 to Vx at I to I + x, and no other byte. -/
def Obligations.RegistersAreStored : Prop :=
  ∀ (s : State) (x : RegIdx), Memory.wf s.mem → s.i.toNat + x.val ≤ 4095 →
    Completes (.storeRegs x) s (fun t =>
      (∀ k : RegIdx, k ≤ x → Memory.read t.mem (s.i.toNat + k.val) = s.reg k) ∧
      (∀ a, a < s.i.toNat ∨ s.i.toNat + x.val < a → Memory.read t.mem a = Memory.read s.mem a) ∧
      t.i = s.i ∧ t.pc = s.pc + 2 ∧ Memory.wf t.mem)

/-- LD Vx, [I] (42_index_memory R126; I unchanged: D13): V0 to Vx from I to I + x; registers above x and everything
else unchanged. -/
def Obligations.RegistersAreLoaded : Prop :=
  ∀ (s : State) (x : RegIdx), s.i.toNat + x.val ≤ 4095 →
    Completes (.loadRegs x) s (fun t =>
      (∀ k : RegIdx, k ≤ x → t.reg k = Memory.read s.mem (s.i.toNat + k.val)) ∧
      (∀ k : RegIdx, x < k → t.reg k = s.reg k) ∧
      t.pc = s.pc + 2 ∧ UnchangedBut (fun c => c = .pc ∨ ∃ k, k ≤ x ∧ c = .v k) s t)

/-- Storing V0..Vx and loading them back from the same address recovers them (42_index_memory R125, R126;
95_test_vectors S13), whatever the registers, PC and framebuffer were made in between. -/
def Obligations.StoreThenLoadRecoversRegisters : Prop :=
  ∀ (s t u w : State) (x : RegIdx), Memory.wf s.mem → s.mode ≠ .faulted → t.mode ≠ .faulted →
    exec (.storeRegs x) s = .next t → u.mem = t.mem → u.i = s.i → exec (.loadRegs x) u = .next w →
    ∀ k : RegIdx, k ≤ x → w.reg k = s.reg k

/-! ### Display (43_display) -/

/-- CLS (43_display R131; pattern GK1): every pixel 0 and nothing else but PC. -/
def Obligations.ClearUnsetsEveryPixel : Prop :=
  ∀ s : State, Completes .cls s (fun t =>
    (∀ r c, Framebuffer.get t.fb r c = false) ∧ t.pc = s.pc + 2 ∧
    UnchangedBut (fun p => p = .pc ∨ ∃ r c, p = .pixel r c) s t)

/-- DRW Vx, Vy, n (43_display R132; GK15, D14, D15): every pixel under a 1 bit of the sprite is inverted, with each
pixel wrapped on its own, and every other pixel is left alone; only PC and VF change besides. -/
def Obligations.DrawInvertsExactlyTheCoveredPixels : Prop :=
  ∀ (s : State) (x y : RegIdx) (n : Fin 16), n = 0 ∨ s.i.toNat + n.val - 1 ≤ 4095 →
    Completes (.drw x y n) s (fun t =>
      (∀ r c, SpriteCovers s x y n r c → Framebuffer.get t.fb r c = !Framebuffer.get s.fb r c) ∧
      (∀ r c, ¬ SpriteCovers s x y n r c → Framebuffer.get t.fb r c = Framebuffer.get s.fb r c) ∧
      t.pc = s.pc + 2 ∧ UnchangedBut (fun p => p = .pc ∨ p = .v VF ∨ ∃ r c, p = .pixel r c) s t)

/-- The collision flag (43_display R132, R133): VF = 1 exactly when some pixel under a 1 bit was set before, else 0. -/
def Obligations.CollisionIsASetPixelUnderTheSprite : Prop :=
  ∀ (s : State) (x y : RegIdx) (n : Fin 16), n = 0 ∨ s.i.toNat + n.val - 1 ≤ 4095 →
    Completes (.drw x y n) s (fun t =>
      (t.reg VF = 1 ∨ t.reg VF = 0) ∧
      (t.reg VF = 1 ↔ ∃ r c, SpriteCovers s x y n r c ∧ Framebuffer.get s.fb r c = true))

/-- Drawing the same sprite twice, x and y not F (43_display R135, 90_conflicts C10; GK15, D14, D15): the framebuffer is
as before; the first VF is 1 exactly when a covered pixel was set, the second exactly when a covered pixel was unset
before the first. -/
def Obligations.DrawingTwiceRestoresTheFramebuffer : Prop :=
  ∀ (s : State) (x y : RegIdx) (n : Fin 16), x ≠ VF → y ≠ VF → n = 0 ∨ s.i.toNat + n.val - 1 ≤ 4095 →
    Completes (.drw x y n) s (fun t => Completes (.drw x y n) t (fun u =>
      (∀ r c, Framebuffer.get u.fb r c = Framebuffer.get s.fb r c) ∧
      (t.reg VF = 1 ↔ ∃ r c, SpriteCovers s x y n r c ∧ Framebuffer.get s.fb r c = true) ∧
      (u.reg VF = 1 ↔ ∃ r c, SpriteCovers s x y n r c ∧ Framebuffer.get s.fb r c = false)))

/-! ### Timers and keys (44_timers_keys, 60_exceptions) -/

/-- The timer moves (44_timers_keys R140, R141, R142; patterns GK8): the whole counter, and nothing else but PC. -/
def Obligations.TimerMovesCopyTheWholeByte : Prop :=
  ∀ (s : State) (x : RegIdx),
    Completes (.ldVxDt x) s (fun t => t.reg x = s.dt ∧ t.pc = s.pc + 2 ∧ OnlyChanged [.pc, .v x] s t) ∧
    Completes (.ldDtVx x) s (fun t => t.dt = s.reg x ∧ t.pc = s.pc + 2 ∧ OnlyChanged [.pc, .dt] s t) ∧
    Completes (.ldStVx x) s (fun t =>
      t.sr = s.reg x ∧ (t.sound = true ↔ 0 < (s.reg x).toNat) ∧ t.pc = s.pc + 2 ∧ OnlyChanged [.pc, .sr] s t)

/-- LD Vx, K (44_timers_keys R145; decision D12): the engine waits for register x with no press captured and PC still
at the instruction; the status is BLOCKED where no fault is held. -/
def Obligations.WaitForKeySuspends : Prop :=
  ∀ (s : State) (x : RegIdx), Completes (.ldVxK x) s (fun t =>
    t.mode = .awaitKey ∧ t.waitx = x ∧ t.kp = none ∧ t.pc = s.pc ∧
    (s.fault = none → t.status = .blocked) ∧ OnlyChanged [.mode, .waitx, .kp] s t)

/-- The poll (44_timers_keys R146; D12, GK11): no state change while no press is captured; otherwise the code goes to
V[WAITX], PC advances, the wait ends. -/
def Obligations.PollDeliversTheCapturedKey : Prop :=
  ∀ s : State, s.mode = .awaitKey →
    (s.kp = none → step s = .next s) ∧
    (∀ k, s.kp = some k → ∃ t, step s = .next t ∧
      (t.reg s.waitx).toNat = k.val ∧ t.pc = s.pc + 2 ∧ t.mode = .running ∧ t.waitx = 0 ∧ t.kp = none ∧
      OnlyChanged [.pc, .v s.waitx, .mode, .waitx, .kp] s t)

/-- The first new press wins (60_exceptions R171, 44_timers_keys R146, 70_reset R199; D12, GK11). After LD Vx, K come any
polls, ticks and key events in which no key goes from unpressed to pressed (`before`: releases, and repeated presses of
keys already down); then a press of a key unpressed when it arrives, held at the start of the wait or not; then any
ticks and key events; then one step. That step delivers the key to Vx and continues after the instruction; memory,
framebuffer, stack, I and the other registers are as before. In an infinite run with no reset in which steps keep coming
a captured press is delivered (70_reset R198, D27). Without a press the wait goes on for ever, however fair the schedule,
and that is a legal run and no fault: each state of it waits with the same PC, registers and fault record (R198). -/
def Obligations.FirstPressEndsTheWait : Prop :=
  (∀ (s : State) (x : RegIdx) (code : KeyCode) (before after : List Event),
    noNewPress s.key before = true → (latchAfter s.key before)[code.val] = false →
    (∀ e ∈ after, e = .tick ∨ ∃ k pressed, e = .key k pressed) →
    ∃ t u, exec (.ldVxK x) s = .next t ∧
      runEvents (before ++ [.key code true] ++ after ++ [.step]) t = .next u ∧
      (u.reg x).toNat = code.val ∧ u.pc = s.pc + 2 ∧ u.mode = .running ∧ u.kp = none ∧ u.waitx = 0 ∧
      (∀ r, r ≠ x → u.reg r = s.reg r) ∧ u.mem = s.mem ∧ u.fb = s.fb ∧ u.stack = s.stack ∧ u.sp = s.sp ∧ u.i = s.i) ∧
  (∀ (schedule : Schedule) (trace : Nat → State) (code : KeyCode), IsRun schedule trace → Recurs .step schedule →
    (∀ n program, schedule n ≠ .reset program) → (trace 0).mode = .awaitKey → (trace 0).kp = some code →
    ∃ n, (trace n).mode = .running ∧ ((trace n).reg (trace 0).waitx).toNat = code.val ∧
      (trace n).pc = (trace 0).pc + 2) ∧
  (∀ (s : State) (x : RegIdx) (schedule : Schedule),
    (∀ n, noNewPress s.key ((List.range n).map schedule) = true) →
    ∃ trace, exec (.ldVxK x) s = .next (trace 0) ∧ IsRun schedule trace ∧
      ∀ n, (trace n).mode = .awaitKey ∧ (trace n).pc = s.pc ∧ (trace n).fault = s.fault ∧
        ∀ r, (trace n).reg r = s.reg r)

/-- The tick (60_exceptions R166; frozen when FAULTED: D18): each timer falls by one while nonzero, each by its own
test, in RUNNING and AWAIT_KEY alike, and nothing else changes; nothing at all changes when FAULTED. -/
def Obligations.TickDecrementsNonzeroTimers : Prop :=
  ∀ s : State,
    (s.mode ≠ .faulted →
      s.tick.dt.toNat = s.dt.toNat - 1 ∧ s.tick.sr.toNat = s.sr.toNat - 1 ∧ OnlyChanged [.dt, .sr] s s.tick) ∧
    (s.mode = .faulted → s.tick = s)

/-- n ticks take n from each timer, down to 0 and no further (60_exceptions R166; 95_test_vectors S11). And in every
infinite run in which ticks keep coming (70_reset R198, D27), whatever the order of the events, from every moment on each
timer reaches 0, unless the machine faults (D18: the timers freeze) or a step runs the instruction that writes that
timer (R168). -/
def Obligations.TimersCountDownToZero : Prop :=
  (∀ (n : Nat) (s : State), s.mode ≠ .faulted →
    ∃ t, runEvents (List.replicate n .tick) s = .next t ∧
      t.dt.toNat = s.dt.toNat - n ∧ t.sr.toNat = s.sr.toNat - n) ∧
  (∀ (schedule : Schedule) (trace : Nat → State), IsRun schedule trace → Recurs .tick schedule →
    ∀ m, (∃ n, m ≤ n ∧ ((trace n).dt = 0 ∨ (trace n).mode = .faulted ∨
        (schedule n = .step ∧ Executes (trace n) (fun ins => ∃ x, ins = .ldDtVx x)))) ∧
      (∃ n, m ≤ n ∧ ((trace n).sr = 0 ∨ (trace n).mode = .faulted ∨
        (schedule n = .step ∧ Executes (trace n) (fun ins => ∃ x, ins = .ldStVx x)))))

/-- The key event (60_exceptions R170; press capture D12; frozen when FAULTED: D18): the flag takes the event's value,
KP takes the code exactly when the engine waits, the event is a press, the flag was 0 and KP was NONE; nothing else
changes; nothing at all when FAULTED. -/
def Obligations.KeyEventWritesTheLatch : Prop :=
  ∀ (s : State) (code : KeyCode) (pressed : Bool),
    (s.mode ≠ .faulted →
      (s.keyEvent code pressed).keyDown code = pressed ∧
      (s.keyEvent code pressed).kp =
        (if s.mode = .awaitKey ∧ pressed = true ∧ s.keyDown code = false ∧ s.kp = none then some code else s.kp) ∧
      OnlyChanged [.keyFlag code, .kp] s (s.keyEvent code pressed)) ∧
    (s.mode = .faulted → s.keyEvent code pressed = s)

/-- SOUND (60_exceptions R169). Of the instructions only LD ST, Vx changes it; a poll and a key event never do; a tick only
turns it off, and only from SR = 1. Over the events: it changes only at a step that fetches LD ST, Vx in RUNNING (so at
no faulting step, no poll and no step when FAULTED), at such a tick, or at a reset, which leaves it off. -/
def Obligations.SoundChangesOnlyWhereStated : Prop :=
  (∀ (ins : Instr) (s t : State), exec ins s = .next t → t.sound ≠ s.sound → ∃ x, ins = .ldStVx x) ∧
  (∀ s : State, s.poll.sound = s.sound ∧ ∀ code pressed, (s.keyEvent code pressed).sound = s.sound) ∧
  (∀ s : State, s.tick.sound ≠ s.sound → s.sr = 1 ∧ s.sound = true ∧ s.tick.sound = false) ∧
  (∀ (e : Event) (s t : State), applyEvent e s = .next t → t.sound ≠ s.sound →
    (e = .step ∧ s.mode = .running ∧ ∃ op x, s.fetch = .ok op ∧ decode op = .ok (.ldStVx x)) ∨
    (e = .tick ∧ s.mode ≠ .faulted ∧ s.sr = 1) ∨
    (∃ program, e = .reset program ∧ t.sound = false))

/-- STATUS (60_exceptions R173; decision D1, log 11): after a step from a state that meets the invariant it is FAULT
with the record held, or BLOCKED after LD Vx, K and after a poll with no press, or OK; ticks and key events do not
change it. -/
def Obligations.StatusIsTheResultOfTheLastStep : Prop :=
  ∀ s t : State, s.Inv → step s = .next t →
    (∀ record, t.status = .fault record ↔ t.fault = some record) ∧
    (s.mode = .awaitKey → (t.status = .blocked ↔ s.kp = none) ∧ (t.status = .ok ↔ s.kp ≠ none)) ∧
    (∀ op ins, s.mode = .running → s.fetch = .ok op → decode op = .ok ins →
      (t.status = .blocked ↔ ∃ x, ins = .ldVxK x)) ∧
    t.tick.status = t.status ∧ (∀ code pressed, (t.keyEvent code pressed).status = t.status)

/-! ### Whole-machine rules and frames -/

/-- Who writes what, for every piece of state (10_state R23, R27, R29, R32 to R35, R37, R39; 20_memory R50; 60_exceptions
R157, R168; D6, D8, D9, D12, D16). Of the instructions only LD B and LD [I] change memory, only CLS and DRW the
framebuffer, only CALL the stack, only CALL and RET the SP, only LD DT and LD ST the timers, only LD I, ADD I and LD F
the register I, only LD Vx, K WAITX and KP, only RND the model's own draw counter (log 4), and none the input latch. A
general register changes only where the instruction's rule writes it, PC only where the instruction neither faults nor
starts a wait, MODE only to AWAIT_KEY by LD Vx, K and to FAULTED by a fault, FAULT only by a fault, and only RET, CALL
and the instructions that access memory at I take one. -/
def Obligations.EachPieceOfStateHasItsOwnWriters : Prop :=
  ∀ (ins : Instr) (s t : State), exec ins s = .next t →
    (t.mem ≠ s.mem → ∃ x, ins = .ldB x ∨ ins = .storeRegs x) ∧
    (t.fb ≠ s.fb → ins = .cls ∨ ∃ x y n, ins = .drw x y n) ∧
    (t.stack ≠ s.stack → ∃ nnn, ins = .call nnn) ∧
    (t.sp ≠ s.sp → ins = .ret ∨ ∃ nnn, ins = .call nnn) ∧
    (t.dt ≠ s.dt → ∃ x, ins = .ldDtVx x) ∧
    (t.sr ≠ s.sr → ∃ x, ins = .ldStVx x) ∧
    (t.i ≠ s.i → (∃ nnn, ins = .ldI nnn) ∨ ∃ x, ins = .addI x ∨ ins = .ldF x) ∧
    t.key = s.key ∧
    (∀ r, t.reg r ≠ s.reg r → mayWrite ins s (.v r)) ∧
    (t.pc ≠ s.pc → t.mode = s.mode ∧ t.fault = s.fault ∧ ∀ x, ins ≠ .ldVxK x) ∧
    (t.mode ≠ s.mode → (t.mode = .awaitKey ∧ ∃ x, ins = .ldVxK x) ∨ (t.mode = .faulted ∧ mayFault ins = true)) ∧
    (t.fault ≠ s.fault → t.mode = .faulted ∧ mayFault ins = true) ∧
    (t.waitx ≠ s.waitx ∨ t.kp ≠ s.kp → ∃ x, ins = .ldVxK x) ∧
    (t.draws ≠ s.draws → ∃ x kk, ins = .rnd x kk)

/-- The frame of the 28 instructions that access neither the stack nor memory at I (CLS, JP, SE, SNE, LD, ADD, OR, AND,
XOR, SUB, SHR, SUBN, SHL, LD I, JP V0, RND, SKP, SKNP, the timer moves, LD Vx,K, ADD I, LD F): besides PC each changes
only what its rule writes, and RND the model's own draw counter `draws` too (log 4). That VF is unchanged by OR, AND, XOR,
LD Vx,Vy and ADD I unless it is the destination is D8 and D9; that LD Vx,K writes MODE, WAITX and KP is D12
(40_control_flow to 44_timers_keys; 10_state R23, R27). Every byte of memory is unchanged. -/
def Obligations.RegisterInstructionFrame : Prop :=
  ∀ (ins : Instr) (s t : State), ins ≠ .ret → (∀ nnn, ins ≠ .call nnn) → (∀ x, ins ≠ .ldB x) →
    (∀ x, ins ≠ .storeRegs x) → (∀ x, ins ≠ .loadRegs x) → (∀ x y n, ins ≠ .drw x y n) →
    exec ins s = .next t → FrameKept ins s t

/-- The frame of RET, CALL, LD B, LD [I], LD Vx,[I] and DRW: with no fault, besides PC each changes only what its rule
writes (the bytes stored at I + k, the registers loaded, the covered pixels and VF, the pushed slot and SP); with a
fault only MODE and FAULT (40_control_flow R91, R93; 42_index_memory R124 to R126; 43_display R132; 60_exceptions
R158). -/
def Obligations.StackAndMemoryInstructionFrame : Prop :=
  ∀ (ins : Instr) (s t : State), Memory.wf s.mem → s.mode ≠ .faulted →
    (ins = .ret ∨ (∃ nnn, ins = .call nnn) ∨ (∃ x, ins = .ldB x) ∨ (∃ x, ins = .storeRegs x) ∨
      (∃ x, ins = .loadRegs x) ∨ ∃ x y n, ins = .drw x y n) →
    exec ins s = .next t →
    (t.mode ≠ .faulted → FrameKept ins s t) ∧ (t.mode = .faulted → OnlyChanged [.mode, .fault] s t)

/-! ### Reset and the invariant (70_reset_and_hazards, 10_state) -/

/-- Reset (10_state R38, 70_reset R190): PC = 0x200, SP = 0, DT = SR = 0 from the source; V, I, STACK, FB, KEY, MODE,
WAITX, KP and FAULT zero, empty, RUNNING, NONE by the spec's decision D22 (log 9); for any font and program. -/
def Obligations.ResetLeavesTheStatedValues : Prop :=
  ∀ (font : Vector Byte 80) (program : List Byte),
    (State.boot font program).pc = 0x0200 ∧ (State.boot font program).sp = 0 ∧
    (State.boot font program).dt = 0 ∧ (State.boot font program).sr = 0 ∧
    (∀ x, (State.boot font program).reg x = 0) ∧ (State.boot font program).i = 0 ∧
    (∀ k : Fin 16, (State.boot font program).stack[k.val] = 0) ∧
    (∀ r c, Framebuffer.get (State.boot font program).fb r c = false) ∧
    (∀ k, (State.boot font program).keyDown k = false) ∧
    (State.boot font program).mode = .running ∧ (State.boot font program).waitx = 0 ∧
    (State.boot font program).kp = none ∧ (State.boot font program).fault = none ∧
    (State.boot font program).sound = false ∧ (State.boot font program).status = .ok

/-- Memory after reset (20_memory R56, R58, R59; 70_reset R190, R191; D22, D24, D28): the font at 0x000..0x04F, 0x00 up
to 0x1FF, then the program's bytes verbatim from 0x200, cut at the end of memory, and 0x00 after it. -/
def Obligations.ResetLoadsFontAndProgram : Prop :=
  ∀ (font : Vector Byte 80) (program : List Byte) (a : Nat),
    (∀ h : a < 80, Memory.read (State.boot font program).mem a = font[a]) ∧
    (80 ≤ a → a < 0x200 → Memory.read (State.boot font program).mem a = 0) ∧
    (0x200 ≤ a → a < 4096 → Memory.read (State.boot font program).mem a = program.getD (a - 0x200) 0)

/-- The invariant holds after reset, for any font and program, the state after reset of the model among them. -/
def Obligations.InvariantHoldsAtReset : Prop :=
  State.reset.Inv ∧ ∀ (font : Vector Byte 80) (program : List Byte), (State.boot font program).Inv

/-- Every event keeps the invariant (State.Inv), the step among them: canonical memory, SP in 0..16, return addresses at
most 4096 and PC at most 0x10FE (10_state R28, R29), WAITX and KP cleared outside a wait (R35), a fault record exactly
in FAULTED (R37) of the shape of 60_exceptions R155. From a state that meets the invariant each of step, tick, key and
reset (00_scope R9) answers a state, and that state meets it; D6, D12, D16, D17, D18. -/
def Obligations.EveryStepKeepsTheInvariant : Prop :=
  (∀ s t : State, s.Inv → step s = .next t → t.Inv) ∧
  (∀ (e : Event) (s : State), s.Inv → ∃ t, applyEvent e s = .next t ∧ t.Inv)

/-- From a state that meets the invariant the step never stops: there is no stuck case (93_implementation_defined, end
of Part 1). -/
def Obligations.EveryStepAnswersANextState : Prop := ∀ s : State, s.Inv → SafeStep s

/-- Every run: after reset with any font and program, any sequence of step, tick, key and reset events in any order
(00_scope R10, 70_reset R198, D27) answers a state that meets the invariant; and every infinite schedule, fair or not, has
an infinite run, each state of which meets it. -/
def Obligations.EveryRunMeetsTheInvariant : Prop :=
  ∀ (font : Vector Byte 80) (program : List Byte),
    (∀ events : List Event, ∃ t, runEvents events (State.boot font program) = .next t ∧ t.Inv) ∧
    (∀ schedule : Schedule, ∃ trace, trace 0 = State.boot font program ∧ IsRun schedule trace ∧ ∀ n, (trace n).Inv)
end

