-- ==== Sys2Proof/Laws/Decode.lean ====
section
/-! SUPPORT. The fields of an encoded word (30_encoding R71, R72). -/

namespace Sys2Proof

@[simp] theorem nibbleIndex_nibbleOf (k : Fin 16) : nibbleIndex (nibbleOf k) = k := by
  apply Fin.ext
  simp [nibbleIndex, nibbleOf]

@[simp] theorem nibbleOf_nibbleIndex (b : BitVec 4) : nibbleOf (nibbleIndex b) = b := by
  apply BitVec.eq_of_toNat_eq
  simp [nibbleIndex, nibbleOf]

/-! ### Format A -/

@[simp] theorem familyField_encodeA (f : BitVec 4) (nnn : Addr) : familyField (encodeA f nnn) = f := by
  unfold familyField encodeA
  ext k hk
  simp only [BitVec.getElem_extractLsb', BitVec.getLsbD_append]
  simp [show ¬ 12 + k < 12 by omega, BitVec.getLsbD_eq_getElem hk]

@[simp] theorem nnnField_encodeA (f : BitVec 4) (nnn : Addr) : nnnField (encodeA f nnn) = nnn := by
  unfold nnnField encodeA
  ext k hk
  simp only [BitVec.getElem_extractLsb', BitVec.getLsbD_append]
  simp [hk]

/-! ### Formats I and X -/

@[simp] theorem familyField_encodeI (f : BitVec 4) (x : RegIdx) (kk : Byte) :
    familyField (encodeI f x kk) = f := by
  unfold familyField encodeI
  ext k hk
  simp only [BitVec.getElem_extractLsb', BitVec.getLsbD_append]
  simp [show ¬ 12 + k < 12 by omega, BitVec.getLsbD_eq_getElem hk]

@[simp] theorem xField_encodeI (f : BitVec 4) (x : RegIdx) (kk : Byte) : xField (encodeI f x kk) = x := by
  have h : (encodeI f x kk).extractLsb' 8 4 = nibbleOf x := by
    unfold encodeI
    ext k hk
    simp only [BitVec.getElem_extractLsb', BitVec.getLsbD_append]
    simp [show 8 + k < 12 by omega, BitVec.getLsbD_eq_getElem hk]
  simp [xField, h]

@[simp] theorem kkField_encodeI (f : BitVec 4) (x : RegIdx) (kk : Byte) : kkField (encodeI f x kk) = kk := by
  unfold kkField encodeI
  ext k hk
  simp only [BitVec.getElem_extractLsb', BitVec.getLsbD_append]
  simp [show k < 12 by omega, hk]

/-! ### Formats R and D -/

@[simp] theorem familyField_encodeR (f : BitVec 4) (x y : RegIdx) (n : BitVec 4) :
    familyField (encodeR f x y n) = f := by
  unfold familyField encodeR
  ext k hk
  simp only [BitVec.getElem_extractLsb', BitVec.getLsbD_append]
  simp [show ¬ 12 + k < 12 by omega, BitVec.getLsbD_eq_getElem hk]

@[simp] theorem xField_encodeR (f : BitVec 4) (x y : RegIdx) (n : BitVec 4) : xField (encodeR f x y n) = x := by
  have h : (encodeR f x y n).extractLsb' 8 4 = nibbleOf x := by
    unfold encodeR
    ext k hk
    simp only [BitVec.getElem_extractLsb', BitVec.getLsbD_append]
    simp [show 8 + k < 12 by omega, show ¬ 8 + k < 8 by omega, BitVec.getLsbD_eq_getElem hk]
  simp [xField, h]

@[simp] theorem yField_encodeR (f : BitVec 4) (x y : RegIdx) (n : BitVec 4) : yField (encodeR f x y n) = y := by
  have h : (encodeR f x y n).extractLsb' 4 4 = nibbleOf y := by
    unfold encodeR
    ext k hk
    simp only [BitVec.getElem_extractLsb', BitVec.getLsbD_append]
    simp [show 4 + k < 12 by omega, show 4 + k < 8 by omega, BitVec.getLsbD_eq_getElem hk]
  simp [yField, h]

@[simp] theorem lowNibbleField_encodeR (f : BitVec 4) (x y : RegIdx) (n : BitVec 4) :
    lowNibbleField (encodeR f x y n) = n := by
  unfold lowNibbleField encodeR
  ext k hk
  simp only [BitVec.getElem_extractLsb', BitVec.getLsbD_append]
  simp [show k < 12 by omega, show k < 8 by omega, show k < 4 by omega]

/-- A word is put together again from its two bytes (20_memory R52). -/
@[simp] theorem wordOfBytes_high_low (op : Word) : wordOfBytes (highByte op) (lowByte op) = op := by
  unfold wordOfBytes highByte lowByte
  ext k hk
  rw [BitVec.getElem_append]
  by_cases h : k < 8
  · simp [h, BitVec.getLsbD_eq_getElem hk]
  · simp [h, show 8 + (k - 8) = k by omega, BitVec.getLsbD_eq_getElem hk]

end Sys2Proof
end

