-- ==== Sys2Proof/Laws/Display.lean ====
section
/-! SUPPORT. What a framebuffer operation does to each pixel (43_display R130 to R132). -/

namespace Sys2Proof.Machine

@[simp] theorem Framebuffer.get_clear (r : Fin 32) (c : Fin 64) : Framebuffer.get Framebuffer.clear r c = false := by
  simp [Framebuffer.get, Framebuffer.clear]

/-- A flip inverts its own pixel and leaves every other. -/
theorem Framebuffer.get_flip (fb : Framebuffer) (r r' : Fin 32) (c c' : Fin 64) :
    Framebuffer.get (Framebuffer.flip fb r c) r' c'
      = if r' = r ∧ c' = c then !(Framebuffer.get fb r' c') else Framebuffer.get fb r' c' := by
  by_cases hr : r' = r
  · subst hr
    by_cases hc : c' = c
    · subst hc; simp [Framebuffer.get, Framebuffer.flip]
    · have hv : ¬ c.val = c'.val := fun h => hc (Fin.ext h.symm)
      simp [Framebuffer.get, Framebuffer.flip, hc, hv]
  · have hv : ¬ r.val = r'.val := fun h => hr (Fin.ext h.symm)
    simp [Framebuffer.get, Framebuffer.flip, hr, hv]

/-- Two framebuffers with equal pixels are equal. -/
theorem Framebuffer.ext_get (f g : Framebuffer) (h : ∀ r c, Framebuffer.get f r c = Framebuffer.get g r c) :
    f = g := by
  apply Vector.ext
  intro r hr
  apply Vector.ext
  intro c hc
  exact h ⟨r, hr⟩ ⟨c, hc⟩

/-- One sprite bit: a 1 bit inverts its pixel, a 0 bit changes nothing (43_display R132). -/
theorem blitBit_get (cx cy row : Nat) (bits : Byte) (fc : Framebuffer × Bool) (col : Nat) (r : Fin 32) (c : Fin 64) :
    Framebuffer.get (blitBit cx cy row bits fc col).1 r c
      = (Framebuffer.get fc.1 r c ^^ (spriteBit bits col && decide (r = pixelRow cy row ∧ c = pixelCol cx col))) := by
  unfold blitBit
  cases hb : spriteBit bits col
  · simp
  · simp only [if_true, Framebuffer.get_flip]
    by_cases h : r = pixelRow cy row ∧ c = pixelCol cx col
    · simp [h]
    · simp [h]

/-- One sprite bit collides exactly when it is 1 and its pixel is set (43_display R133). -/
theorem blitBit_collision (cx cy row : Nat) (bits : Byte) (fc : Framebuffer × Bool) (col : Nat) :
    (blitBit cx cy row bits fc col).2
      = (fc.2 || (spriteBit bits col && Framebuffer.get fc.1 (pixelRow cy row) (pixelCol cx col))) := by
  unfold blitBit
  cases spriteBit bits col <;> simp

end Sys2Proof.Machine
end

