-- ==== Sys2Proof/Laws/Events.lean ====
section
/-! SUPPORT. One lemma per event operation: everything it can answer, and how runs compose. -/

namespace Sys2Proof.Machine

/-- The tick: frozen when FAULTED, otherwise the two counters and nothing else (60_exceptions R166). -/
theorem State.tick_cases (s : State) :
    (s.mode = .faulted ∧ s.tick = s) ∨
    (s.mode ≠ .faulted ∧
      s.tick = { s with dt := if s.dt = 0 then 0 else s.dt - 1, sr := if s.sr = 0 then 0 else s.sr - 1 }) := by
  unfold State.tick
  cases h : s.mode
  · exact .inr ⟨Mode.noConfusion, rfl⟩
  · exact .inr ⟨Mode.noConfusion, rfl⟩
  · exact .inl ⟨rfl, rfl⟩

/-- The key event: frozen when FAULTED, otherwise KP and one flag and nothing else (60_exceptions R170). -/
theorem State.keyEvent_cases (s : State) (code : KeyCode) (pressed : Bool) :
    (s.mode = .faulted ∧ s.keyEvent code pressed = s) ∨
    (s.mode ≠ .faulted ∧ s.keyEvent code pressed
      = { s with kp := s.capturedBy code pressed, key := s.key.set code.val pressed }) := by
  unfold State.keyEvent
  cases h : s.mode
  · exact .inr ⟨Mode.noConfusion, rfl⟩
  · exact .inr ⟨Mode.noConfusion, rfl⟩
  · exact .inl ⟨rfl, rfl⟩

/-- An event that is no press of an unpressed key captures nothing (60_exceptions R171). -/
theorem State.capturedBy_of_no_press (s : State) (code : KeyCode) (pressed : Bool)
    (h : pressed = true → s.keyDown code = true) : s.capturedBy code pressed = s.kp := by
  unfold State.capturedBy
  rw [if_neg]
  rintro ⟨-, hp, hk, -⟩
  rw [h hp] at hk
  cases hk

/-- Once a press is held, no later one replaces it (60_exceptions R171). -/
theorem State.capturedBy_of_captured (s : State) (code held : KeyCode) (pressed : Bool) (h : s.kp = some held) :
    s.capturedBy code pressed = some held := by
  simp [State.capturedBy, h]

/-- An infinite run from its second state on is a run of the rest of the schedule. -/
theorem IsRun.tail {schedule : Schedule} {trace : Nat → State} (h : IsRun schedule trace) :
    IsRun (fun n => schedule (n + 1)) (fun n => trace (n + 1)) := fun n => h (n + 1)

/-- The first n events of an infinite run lead to its state n. -/
theorem IsRun.runEvents_eq {schedule : Schedule} {trace : Nat → State} (h : IsRun schedule trace) (n : Nat) :
    runEvents ((List.range n).map schedule) (trace 0) = .next (trace n) := by
  induction n generalizing schedule trace with
  | zero => rfl
  | succ n ih =>
    rw [List.range_succ_eq_map, List.map_cons, List.map_map, runEvents, h 0]
    exact ih h.tail

/-- A property of moment and state that every event carries on, and in which every event answers a state, holds along an
infinite run of the schedule, and there is one. -/
theorem exists_run (property : Nat → State → Prop) (schedule : Schedule) (s : State) (hs : property 0 s)
    (keeps : ∀ n t, property n t → ∃ u, applyEvent (schedule n) t = .next u ∧ property (n + 1) u) :
    ∃ trace, trace 0 = s ∧ IsRun schedule trace ∧ ∀ n, property n (trace n) := by
  choose next answers holds using keeps
  let trace : (n : Nat) → { t : State // property n t } :=
    fun n => Nat.rec ⟨s, hs⟩ (fun n t => ⟨next n t.1 t.2, holds n t.1 t.2⟩) n
  exact ⟨fun n => (trace n).1, rfl, fun n => answers n (trace n).1 (trace n).2, fun n => (trace n).2⟩

/-- A run over two sequences goes through the state after the first. -/
theorem runEvents_append (first rest : List Event) (s t : State) (h : runEvents first s = .next t) :
    runEvents (first ++ rest) s = runEvents rest t := by
  induction first generalizing s with
  | nil => simp [runEvents] at h; subst h; rfl
  | cons e es ih =>
    simp only [List.cons_append, runEvents] at h ⊢
    cases ha : applyEvent e s with
    | next u => rw [ha] at h; exact ih u h
    | fault r => rw [ha] at h; cases h
    | refused r => rw [ha] at h; cases h

end Sys2Proof.Machine
end

