-- ==== Sys2Proof/Laws/Memory.lean ====
section
/-! SUPPORT. The laws of memory: what a read gives after a write, that every write keeps the canonical form, and what
the bounds check answers (20_memory R51, R53). -/

namespace Sys2Proof.Machine

/-! ### One byte -/

/-- A read after a write gives the byte written at its address and the old byte elsewhere, in canonical memory. -/
theorem Memory.read_write (m : Memory) (hm : m.Pairwise (fun c d => c.1 < d.1)) (a b : Nat) (v : Byte) :
    Memory.read (Memory.write m a v) b = if b = a then v else Memory.read m b := by
  induction m with
  | nil =>
    unfold Memory.write
    by_cases hv : v = unlistedByte a <;> by_cases hb : b = a <;> simp_all [Memory.read]
  | cons c m ih =>
    obtain ⟨a', w⟩ := c
    have ⟨hlt, hrest⟩ := List.pairwise_cons.mp hm
    have unlisted : ∀ x, x ≤ a' → Memory.read m x = unlistedByte x := by
      intro x hx
      clear ih hm
      induction m with
      | nil => rfl
      | cons d m ihm =>
        have hd := hlt d (by simp)
        unfold Memory.read
        rw [if_neg (by simp at hd; omega)]
        exact ihm (fun e he => hlt e (by simp [he])) (List.pairwise_cons.mp hrest).2
    unfold Memory.write
    by_cases h1 : a < a'
    · rw [if_pos h1]
      by_cases hv : v = unlistedByte a
      · rw [if_pos hv]
        by_cases hb : b = a
        · subst hb
          rw [if_pos rfl]
          unfold Memory.read
          rw [if_neg (by omega), unlisted b (by omega), hv]
        · rw [if_neg hb]
      · rw [if_neg hv]
        by_cases hb : b = a <;> simp [Memory.read, hb]
    · rw [if_neg h1]
      by_cases h2 : a = a'
      · subst h2
        rw [if_pos rfl]
        by_cases hv : v = unlistedByte a
        · rw [if_pos hv]
          by_cases hb : b = a
          · subst hb
            rw [if_pos rfl, unlisted b le_rfl, hv]
          · simp [Memory.read, hb]
        · rw [if_neg hv]
          by_cases hb : b = a <;> simp [Memory.read, hb]
      · rw [if_neg h2]
        by_cases hb : b = a'
        · simp [Memory.read, hb, show ¬ a' = a by omega]
        · simp only [Memory.read, if_neg hb]
          exact ih hrest

/-- A cell of a written memory is the written one or an old one. -/
theorem Memory.mem_write (m : Memory) (a : Nat) (v : Byte) (c : Host.Cell) (hc : c ∈ Memory.write m a v) :
    (c = (a, v) ∧ v ≠ unlistedByte a) ∨ c ∈ m := by
  induction m with
  | nil =>
    unfold Memory.write at hc
    split at hc <;> simp_all
  | cons d m ih =>
    unfold Memory.write at hc
    split at hc
    · split at hc <;> simp_all
    · split at hc
      · split at hc <;> simp_all
        rcases hc with h | h <;> simp [h]
      · rcases List.mem_cons.mp hc with h | h
        · simp [h]
        · rcases ih h with h' | h'
          · exact .inl h'
          · simp [h']

/-- Every write of an address in range keeps the canonical form. -/
theorem Memory.write_wf (m : Memory) (a : Nat) (v : Byte) (ha : a < 4096) (hm : Memory.wf m) :
    Memory.wf (Memory.write m a v) := by
  refine ⟨?_, ?_⟩
  · obtain ⟨hp, -⟩ := hm
    induction m with
    | nil => unfold Memory.write; split <;> simp
    | cons d m ih =>
      have ⟨hlt, hrest⟩ := List.pairwise_cons.mp hp
      unfold Memory.write
      split
      · split
        · exact hp
        · refine List.pairwise_cons.mpr ⟨?_, hp⟩
          intro e he
          rcases List.mem_cons.mp he with rfl | h
          · assumption
          · have := hlt e h
            simp at this ⊢
            omega
      · split
        · subst_vars
          split
          · exact hrest
          · exact List.pairwise_cons.mpr ⟨fun e he => hlt e he, hrest⟩
        · refine List.pairwise_cons.mpr ⟨?_, ih hrest⟩
          intro e he
          rcases Memory.mem_write _ _ _ _ he with ⟨rfl, -⟩ | h
          · simp; omega
          · exact hlt e h
  · intro c hc
    rcases Memory.mem_write _ _ _ _ hc with ⟨rfl, hv⟩ | h
    · exact ⟨ha, hv⟩
    · exact hm.2 c h

/-! ### Several bytes -/

/-- Writing bytes at addresses in range keeps the canonical form. -/
theorem Memory.writeBytes_wf (bs : List Byte) (m : Memory) (a : Nat) (ha : a + bs.length ≤ 4096)
    (hm : Memory.wf m) : Memory.wf (Memory.writeBytes m a bs) := by
  induction bs generalizing m a with
  | nil => exact hm
  | cons b bs ih =>
    simp only [List.length_cons] at ha
    exact ih _ (a + 1) (by omega) (Memory.write_wf m a b (by omega) hm)

/-- A read after writing bytes: the byte written there, or the old byte (20_memory R53). -/
theorem Memory.read_writeBytes (bs : List Byte) (m : Memory) (a b : Nat) (ha : a + bs.length ≤ 4096)
    (hm : Memory.wf m) :
    Memory.read (Memory.writeBytes m a bs) b
      = if h : a ≤ b ∧ b - a < bs.length then bs[b - a]'h.2 else Memory.read m b := by
  induction bs generalizing m a with
  | nil => simp [Memory.writeBytes]
  | cons v bs ih =>
    simp only [List.length_cons] at ha
    unfold Memory.writeBytes
    rw [ih _ (a + 1) (by omega) (Memory.write_wf m a v (by omega) hm), Memory.read_write m hm.1]
    by_cases h1 : a + 1 ≤ b ∧ b - (a + 1) < bs.length
    · have h2 : a ≤ b ∧ b - a < (v :: bs).length := by simp; omega
      rw [dif_pos h1, dif_pos h2]
      have h3 : b - a = (b - (a + 1)) + 1 := by omega
      simp [h3]
    · rw [dif_neg h1]
      by_cases hb : b = a
      · subst hb; simp
      · rw [if_neg hb, dif_neg (by simp; omega)]

@[simp] theorem Memory.length_readBytes (m : Memory) (a n : Nat) : (Memory.readBytes m a n).length = n := by
  induction n generalizing a with
  | zero => rfl
  | succ n ih => simp [Memory.readBytes, ih]

/-- The k-th of several bytes read is the byte at the k-th address (20_memory R53). -/
theorem Memory.getElem_readBytes (m : Memory) (a n k : Nat) (h : k < (Memory.readBytes m a n).length) :
    (Memory.readBytes m a n)[k] = Memory.read m (a + k) := by
  induction n generalizing a k with
  | zero => simp [Memory.readBytes] at h
  | succ n ih =>
    cases k with
    | zero => rfl
    | succ k =>
      simp only [Memory.readBytes, List.getElem_cons_succ]
      rw [ih]
      congr 1; omega

/-! ### The bounds check (60_exceptions R154) -/

/-- The check passes exactly when the access is empty or ends inside memory. -/
theorem outOfBounds_eq_none (base : Word) (count : Nat) :
    outOfBounds base count = none ↔ count = 0 ∨ base.toNat + count ≤ 4096 := by
  unfold outOfBounds
  split <;> simp <;> omega

/-- Where it fails it names the lowest address out of range: the base, or 4096 when the base is inside. -/
theorem outOfBounds_eq_some (base addr : Word) (count : Nat) :
    outOfBounds base count = some addr ↔
      0 < count ∧ 4096 < base.toNat + count ∧
        addr.toNat = if 4096 ≤ base.toNat then base.toNat else 4096 := by
  unfold outOfBounds
  split
  · rename_i h
    simp only [Option.some.injEq, h.1, h.2, true_and]
    rw [← BitVec.toNat_inj, eq_comm]
    split <;> simp
  · rename_i h
    simp only [reduceCtorEq, false_iff, not_and]
    intro h1 h2
    exact absurd ⟨h1, h2⟩ h

end Sys2Proof.Machine
end

