-- ==== Sys2Proof/Laws/State.lean ====
section
/-! SUPPORT. What each field is after each state update: one lemma per field per update, all true by definition, and
the composite updates written over the primitive ones, so that no later proof unfolds a record update. -/

namespace Sys2Proof.Machine


/-! ### State.setReg -/

@[simp] theorem State.setReg_v (s : State) (x : RegIdx) (b : Byte) : (s.setReg x b).v = s.v.set x.val b := rfl
@[simp] theorem State.setReg_i (s : State) (x : RegIdx) (b : Byte) : (s.setReg x b).i = s.i := rfl
@[simp] theorem State.setReg_pc (s : State) (x : RegIdx) (b : Byte) : (s.setReg x b).pc = s.pc := rfl
@[simp] theorem State.setReg_sp (s : State) (x : RegIdx) (b : Byte) : (s.setReg x b).sp = s.sp := rfl
@[simp] theorem State.setReg_stack (s : State) (x : RegIdx) (b : Byte) : (s.setReg x b).stack = s.stack := rfl
@[simp] theorem State.setReg_dt (s : State) (x : RegIdx) (b : Byte) : (s.setReg x b).dt = s.dt := rfl
@[simp] theorem State.setReg_sr (s : State) (x : RegIdx) (b : Byte) : (s.setReg x b).sr = s.sr := rfl
@[simp] theorem State.setReg_mem (s : State) (x : RegIdx) (b : Byte) : (s.setReg x b).mem = s.mem := rfl
@[simp] theorem State.setReg_fb (s : State) (x : RegIdx) (b : Byte) : (s.setReg x b).fb = s.fb := rfl
@[simp] theorem State.setReg_key (s : State) (x : RegIdx) (b : Byte) : (s.setReg x b).key = s.key := rfl
@[simp] theorem State.setReg_mode (s : State) (x : RegIdx) (b : Byte) : (s.setReg x b).mode = s.mode := rfl
@[simp] theorem State.setReg_waitx (s : State) (x : RegIdx) (b : Byte) : (s.setReg x b).waitx = s.waitx := rfl
@[simp] theorem State.setReg_kp (s : State) (x : RegIdx) (b : Byte) : (s.setReg x b).kp = s.kp := rfl
@[simp] theorem State.setReg_fault (s : State) (x : RegIdx) (b : Byte) : (s.setReg x b).fault = s.fault := rfl
@[simp] theorem State.setReg_draws (s : State) (x : RegIdx) (b : Byte) : (s.setReg x b).draws = s.draws := rfl

/-! ### State.setRegs -/

@[simp] theorem State.setRegs_v (s : State) (w : Vector Byte 16) : (s.setRegs w).v = w := rfl
@[simp] theorem State.setRegs_i (s : State) (w : Vector Byte 16) : (s.setRegs w).i = s.i := rfl
@[simp] theorem State.setRegs_pc (s : State) (w : Vector Byte 16) : (s.setRegs w).pc = s.pc := rfl
@[simp] theorem State.setRegs_sp (s : State) (w : Vector Byte 16) : (s.setRegs w).sp = s.sp := rfl
@[simp] theorem State.setRegs_stack (s : State) (w : Vector Byte 16) : (s.setRegs w).stack = s.stack := rfl
@[simp] theorem State.setRegs_dt (s : State) (w : Vector Byte 16) : (s.setRegs w).dt = s.dt := rfl
@[simp] theorem State.setRegs_sr (s : State) (w : Vector Byte 16) : (s.setRegs w).sr = s.sr := rfl
@[simp] theorem State.setRegs_mem (s : State) (w : Vector Byte 16) : (s.setRegs w).mem = s.mem := rfl
@[simp] theorem State.setRegs_fb (s : State) (w : Vector Byte 16) : (s.setRegs w).fb = s.fb := rfl
@[simp] theorem State.setRegs_key (s : State) (w : Vector Byte 16) : (s.setRegs w).key = s.key := rfl
@[simp] theorem State.setRegs_mode (s : State) (w : Vector Byte 16) : (s.setRegs w).mode = s.mode := rfl
@[simp] theorem State.setRegs_waitx (s : State) (w : Vector Byte 16) : (s.setRegs w).waitx = s.waitx := rfl
@[simp] theorem State.setRegs_kp (s : State) (w : Vector Byte 16) : (s.setRegs w).kp = s.kp := rfl
@[simp] theorem State.setRegs_fault (s : State) (w : Vector Byte 16) : (s.setRegs w).fault = s.fault := rfl
@[simp] theorem State.setRegs_draws (s : State) (w : Vector Byte 16) : (s.setRegs w).draws = s.draws := rfl

/-! ### State.jump -/

@[simp] theorem State.jump_v (s : State) (w : Word) : (s.jump w).v = s.v := rfl
@[simp] theorem State.jump_i (s : State) (w : Word) : (s.jump w).i = s.i := rfl
@[simp] theorem State.jump_pc (s : State) (w : Word) : (s.jump w).pc = w := rfl
@[simp] theorem State.jump_sp (s : State) (w : Word) : (s.jump w).sp = s.sp := rfl
@[simp] theorem State.jump_stack (s : State) (w : Word) : (s.jump w).stack = s.stack := rfl
@[simp] theorem State.jump_dt (s : State) (w : Word) : (s.jump w).dt = s.dt := rfl
@[simp] theorem State.jump_sr (s : State) (w : Word) : (s.jump w).sr = s.sr := rfl
@[simp] theorem State.jump_mem (s : State) (w : Word) : (s.jump w).mem = s.mem := rfl
@[simp] theorem State.jump_fb (s : State) (w : Word) : (s.jump w).fb = s.fb := rfl
@[simp] theorem State.jump_key (s : State) (w : Word) : (s.jump w).key = s.key := rfl
@[simp] theorem State.jump_mode (s : State) (w : Word) : (s.jump w).mode = s.mode := rfl
@[simp] theorem State.jump_waitx (s : State) (w : Word) : (s.jump w).waitx = s.waitx := rfl
@[simp] theorem State.jump_kp (s : State) (w : Word) : (s.jump w).kp = s.kp := rfl
@[simp] theorem State.jump_fault (s : State) (w : Word) : (s.jump w).fault = s.fault := rfl
@[simp] theorem State.jump_draws (s : State) (w : Word) : (s.jump w).draws = s.draws := rfl
@[simp] theorem State.jump_reg (s : State) (w : Word) (r : RegIdx) : (s.jump w).reg r = s.reg r := rfl

/-! ### State.setI -/

@[simp] theorem State.setI_v (s : State) (w : Word) : (s.setI w).v = s.v := rfl
@[simp] theorem State.setI_i (s : State) (w : Word) : (s.setI w).i = w := rfl
@[simp] theorem State.setI_pc (s : State) (w : Word) : (s.setI w).pc = s.pc := rfl
@[simp] theorem State.setI_sp (s : State) (w : Word) : (s.setI w).sp = s.sp := rfl
@[simp] theorem State.setI_stack (s : State) (w : Word) : (s.setI w).stack = s.stack := rfl
@[simp] theorem State.setI_dt (s : State) (w : Word) : (s.setI w).dt = s.dt := rfl
@[simp] theorem State.setI_sr (s : State) (w : Word) : (s.setI w).sr = s.sr := rfl
@[simp] theorem State.setI_mem (s : State) (w : Word) : (s.setI w).mem = s.mem := rfl
@[simp] theorem State.setI_fb (s : State) (w : Word) : (s.setI w).fb = s.fb := rfl
@[simp] theorem State.setI_key (s : State) (w : Word) : (s.setI w).key = s.key := rfl
@[simp] theorem State.setI_mode (s : State) (w : Word) : (s.setI w).mode = s.mode := rfl
@[simp] theorem State.setI_waitx (s : State) (w : Word) : (s.setI w).waitx = s.waitx := rfl
@[simp] theorem State.setI_kp (s : State) (w : Word) : (s.setI w).kp = s.kp := rfl
@[simp] theorem State.setI_fault (s : State) (w : Word) : (s.setI w).fault = s.fault := rfl
@[simp] theorem State.setI_draws (s : State) (w : Word) : (s.setI w).draws = s.draws := rfl
@[simp] theorem State.setI_reg (s : State) (w : Word) (r : RegIdx) : (s.setI w).reg r = s.reg r := rfl

/-! ### State.setDt -/

@[simp] theorem State.setDt_v (s : State) (b : Byte) : (s.setDt b).v = s.v := rfl
@[simp] theorem State.setDt_i (s : State) (b : Byte) : (s.setDt b).i = s.i := rfl
@[simp] theorem State.setDt_pc (s : State) (b : Byte) : (s.setDt b).pc = s.pc := rfl
@[simp] theorem State.setDt_sp (s : State) (b : Byte) : (s.setDt b).sp = s.sp := rfl
@[simp] theorem State.setDt_stack (s : State) (b : Byte) : (s.setDt b).stack = s.stack := rfl
@[simp] theorem State.setDt_dt (s : State) (b : Byte) : (s.setDt b).dt = b := rfl
@[simp] theorem State.setDt_sr (s : State) (b : Byte) : (s.setDt b).sr = s.sr := rfl
@[simp] theorem State.setDt_mem (s : State) (b : Byte) : (s.setDt b).mem = s.mem := rfl
@[simp] theorem State.setDt_fb (s : State) (b : Byte) : (s.setDt b).fb = s.fb := rfl
@[simp] theorem State.setDt_key (s : State) (b : Byte) : (s.setDt b).key = s.key := rfl
@[simp] theorem State.setDt_mode (s : State) (b : Byte) : (s.setDt b).mode = s.mode := rfl
@[simp] theorem State.setDt_waitx (s : State) (b : Byte) : (s.setDt b).waitx = s.waitx := rfl
@[simp] theorem State.setDt_kp (s : State) (b : Byte) : (s.setDt b).kp = s.kp := rfl
@[simp] theorem State.setDt_fault (s : State) (b : Byte) : (s.setDt b).fault = s.fault := rfl
@[simp] theorem State.setDt_draws (s : State) (b : Byte) : (s.setDt b).draws = s.draws := rfl
@[simp] theorem State.setDt_reg (s : State) (b : Byte) (r : RegIdx) : (s.setDt b).reg r = s.reg r := rfl

/-! ### State.setSr -/

@[simp] theorem State.setSr_v (s : State) (b : Byte) : (s.setSr b).v = s.v := rfl
@[simp] theorem State.setSr_i (s : State) (b : Byte) : (s.setSr b).i = s.i := rfl
@[simp] theorem State.setSr_pc (s : State) (b : Byte) : (s.setSr b).pc = s.pc := rfl
@[simp] theorem State.setSr_sp (s : State) (b : Byte) : (s.setSr b).sp = s.sp := rfl
@[simp] theorem State.setSr_stack (s : State) (b : Byte) : (s.setSr b).stack = s.stack := rfl
@[simp] theorem State.setSr_dt (s : State) (b : Byte) : (s.setSr b).dt = s.dt := rfl
@[simp] theorem State.setSr_sr (s : State) (b : Byte) : (s.setSr b).sr = b := rfl
@[simp] theorem State.setSr_mem (s : State) (b : Byte) : (s.setSr b).mem = s.mem := rfl
@[simp] theorem State.setSr_fb (s : State) (b : Byte) : (s.setSr b).fb = s.fb := rfl
@[simp] theorem State.setSr_key (s : State) (b : Byte) : (s.setSr b).key = s.key := rfl
@[simp] theorem State.setSr_mode (s : State) (b : Byte) : (s.setSr b).mode = s.mode := rfl
@[simp] theorem State.setSr_waitx (s : State) (b : Byte) : (s.setSr b).waitx = s.waitx := rfl
@[simp] theorem State.setSr_kp (s : State) (b : Byte) : (s.setSr b).kp = s.kp := rfl
@[simp] theorem State.setSr_fault (s : State) (b : Byte) : (s.setSr b).fault = s.fault := rfl
@[simp] theorem State.setSr_draws (s : State) (b : Byte) : (s.setSr b).draws = s.draws := rfl
@[simp] theorem State.setSr_reg (s : State) (b : Byte) (r : RegIdx) : (s.setSr b).reg r = s.reg r := rfl

/-! ### State.setMem -/

@[simp] theorem State.setMem_v (s : State) (m : Memory) : (s.setMem m).v = s.v := rfl
@[simp] theorem State.setMem_i (s : State) (m : Memory) : (s.setMem m).i = s.i := rfl
@[simp] theorem State.setMem_pc (s : State) (m : Memory) : (s.setMem m).pc = s.pc := rfl
@[simp] theorem State.setMem_sp (s : State) (m : Memory) : (s.setMem m).sp = s.sp := rfl
@[simp] theorem State.setMem_stack (s : State) (m : Memory) : (s.setMem m).stack = s.stack := rfl
@[simp] theorem State.setMem_dt (s : State) (m : Memory) : (s.setMem m).dt = s.dt := rfl
@[simp] theorem State.setMem_sr (s : State) (m : Memory) : (s.setMem m).sr = s.sr := rfl
@[simp] theorem State.setMem_mem (s : State) (m : Memory) : (s.setMem m).mem = m := rfl
@[simp] theorem State.setMem_fb (s : State) (m : Memory) : (s.setMem m).fb = s.fb := rfl
@[simp] theorem State.setMem_key (s : State) (m : Memory) : (s.setMem m).key = s.key := rfl
@[simp] theorem State.setMem_mode (s : State) (m : Memory) : (s.setMem m).mode = s.mode := rfl
@[simp] theorem State.setMem_waitx (s : State) (m : Memory) : (s.setMem m).waitx = s.waitx := rfl
@[simp] theorem State.setMem_kp (s : State) (m : Memory) : (s.setMem m).kp = s.kp := rfl
@[simp] theorem State.setMem_fault (s : State) (m : Memory) : (s.setMem m).fault = s.fault := rfl
@[simp] theorem State.setMem_draws (s : State) (m : Memory) : (s.setMem m).draws = s.draws := rfl
@[simp] theorem State.setMem_reg (s : State) (m : Memory) (r : RegIdx) : (s.setMem m).reg r = s.reg r := rfl

/-! ### State.setFb -/

@[simp] theorem State.setFb_v (s : State) (f : Framebuffer) : (s.setFb f).v = s.v := rfl
@[simp] theorem State.setFb_i (s : State) (f : Framebuffer) : (s.setFb f).i = s.i := rfl
@[simp] theorem State.setFb_pc (s : State) (f : Framebuffer) : (s.setFb f).pc = s.pc := rfl
@[simp] theorem State.setFb_sp (s : State) (f : Framebuffer) : (s.setFb f).sp = s.sp := rfl
@[simp] theorem State.setFb_stack (s : State) (f : Framebuffer) : (s.setFb f).stack = s.stack := rfl
@[simp] theorem State.setFb_dt (s : State) (f : Framebuffer) : (s.setFb f).dt = s.dt := rfl
@[simp] theorem State.setFb_sr (s : State) (f : Framebuffer) : (s.setFb f).sr = s.sr := rfl
@[simp] theorem State.setFb_mem (s : State) (f : Framebuffer) : (s.setFb f).mem = s.mem := rfl
@[simp] theorem State.setFb_fb (s : State) (f : Framebuffer) : (s.setFb f).fb = f := rfl
@[simp] theorem State.setFb_key (s : State) (f : Framebuffer) : (s.setFb f).key = s.key := rfl
@[simp] theorem State.setFb_mode (s : State) (f : Framebuffer) : (s.setFb f).mode = s.mode := rfl
@[simp] theorem State.setFb_waitx (s : State) (f : Framebuffer) : (s.setFb f).waitx = s.waitx := rfl
@[simp] theorem State.setFb_kp (s : State) (f : Framebuffer) : (s.setFb f).kp = s.kp := rfl
@[simp] theorem State.setFb_fault (s : State) (f : Framebuffer) : (s.setFb f).fault = s.fault := rfl
@[simp] theorem State.setFb_draws (s : State) (f : Framebuffer) : (s.setFb f).draws = s.draws := rfl
@[simp] theorem State.setFb_reg (s : State) (f : Framebuffer) (r : RegIdx) : (s.setFb f).reg r = s.reg r := rfl

/-! ### State.countDraw -/

@[simp] theorem State.countDraw_v (s : State) : (s.countDraw).v = s.v := rfl
@[simp] theorem State.countDraw_i (s : State) : (s.countDraw).i = s.i := rfl
@[simp] theorem State.countDraw_pc (s : State) : (s.countDraw).pc = s.pc := rfl
@[simp] theorem State.countDraw_sp (s : State) : (s.countDraw).sp = s.sp := rfl
@[simp] theorem State.countDraw_stack (s : State) : (s.countDraw).stack = s.stack := rfl
@[simp] theorem State.countDraw_dt (s : State) : (s.countDraw).dt = s.dt := rfl
@[simp] theorem State.countDraw_sr (s : State) : (s.countDraw).sr = s.sr := rfl
@[simp] theorem State.countDraw_mem (s : State) : (s.countDraw).mem = s.mem := rfl
@[simp] theorem State.countDraw_fb (s : State) : (s.countDraw).fb = s.fb := rfl
@[simp] theorem State.countDraw_key (s : State) : (s.countDraw).key = s.key := rfl
@[simp] theorem State.countDraw_mode (s : State) : (s.countDraw).mode = s.mode := rfl
@[simp] theorem State.countDraw_waitx (s : State) : (s.countDraw).waitx = s.waitx := rfl
@[simp] theorem State.countDraw_kp (s : State) : (s.countDraw).kp = s.kp := rfl
@[simp] theorem State.countDraw_fault (s : State) : (s.countDraw).fault = s.fault := rfl
@[simp] theorem State.countDraw_draws (s : State) : (s.countDraw).draws = s.draws + 1 := rfl
@[simp] theorem State.countDraw_reg (s : State) (r : RegIdx) : (s.countDraw).reg r = s.reg r := rfl

/-! ### State.push -/

@[simp] theorem State.push_v (s : State) (h : s.sp.toNat < 16) (w : Word) : (s.push h w).v = s.v := rfl
@[simp] theorem State.push_i (s : State) (h : s.sp.toNat < 16) (w : Word) : (s.push h w).i = s.i := rfl
@[simp] theorem State.push_pc (s : State) (h : s.sp.toNat < 16) (w : Word) : (s.push h w).pc = s.pc := rfl
@[simp] theorem State.push_sp (s : State) (h : s.sp.toNat < 16) (w : Word) : (s.push h w).sp = s.sp + 1 := rfl
@[simp] theorem State.push_stack (s : State) (h : s.sp.toNat < 16) (w : Word) : (s.push h w).stack = s.stack.set s.sp.toNat w h := rfl
@[simp] theorem State.push_dt (s : State) (h : s.sp.toNat < 16) (w : Word) : (s.push h w).dt = s.dt := rfl
@[simp] theorem State.push_sr (s : State) (h : s.sp.toNat < 16) (w : Word) : (s.push h w).sr = s.sr := rfl
@[simp] theorem State.push_mem (s : State) (h : s.sp.toNat < 16) (w : Word) : (s.push h w).mem = s.mem := rfl
@[simp] theorem State.push_fb (s : State) (h : s.sp.toNat < 16) (w : Word) : (s.push h w).fb = s.fb := rfl
@[simp] theorem State.push_key (s : State) (h : s.sp.toNat < 16) (w : Word) : (s.push h w).key = s.key := rfl
@[simp] theorem State.push_mode (s : State) (h : s.sp.toNat < 16) (w : Word) : (s.push h w).mode = s.mode := rfl
@[simp] theorem State.push_waitx (s : State) (h : s.sp.toNat < 16) (w : Word) : (s.push h w).waitx = s.waitx := rfl
@[simp] theorem State.push_kp (s : State) (h : s.sp.toNat < 16) (w : Word) : (s.push h w).kp = s.kp := rfl
@[simp] theorem State.push_fault (s : State) (h : s.sp.toNat < 16) (w : Word) : (s.push h w).fault = s.fault := rfl
@[simp] theorem State.push_draws (s : State) (h : s.sp.toNat < 16) (w : Word) : (s.push h w).draws = s.draws := rfl
@[simp] theorem State.push_reg (s : State) (h : s.sp.toNat < 16) (w : Word) (r : RegIdx) : (s.push h w).reg r = s.reg r := rfl

/-! ### State.pop -/

@[simp] theorem State.pop_v (s : State) (h : s.sp.toNat - 1 < 16) : (s.pop h).v = s.v := rfl
@[simp] theorem State.pop_i (s : State) (h : s.sp.toNat - 1 < 16) : (s.pop h).i = s.i := rfl
@[simp] theorem State.pop_pc (s : State) (h : s.sp.toNat - 1 < 16) : (s.pop h).pc = s.stack[s.sp.toNat - 1]'h := rfl
@[simp] theorem State.pop_sp (s : State) (h : s.sp.toNat - 1 < 16) : (s.pop h).sp = s.sp - 1 := rfl
@[simp] theorem State.pop_stack (s : State) (h : s.sp.toNat - 1 < 16) : (s.pop h).stack = s.stack := rfl
@[simp] theorem State.pop_dt (s : State) (h : s.sp.toNat - 1 < 16) : (s.pop h).dt = s.dt := rfl
@[simp] theorem State.pop_sr (s : State) (h : s.sp.toNat - 1 < 16) : (s.pop h).sr = s.sr := rfl
@[simp] theorem State.pop_mem (s : State) (h : s.sp.toNat - 1 < 16) : (s.pop h).mem = s.mem := rfl
@[simp] theorem State.pop_fb (s : State) (h : s.sp.toNat - 1 < 16) : (s.pop h).fb = s.fb := rfl
@[simp] theorem State.pop_key (s : State) (h : s.sp.toNat - 1 < 16) : (s.pop h).key = s.key := rfl
@[simp] theorem State.pop_mode (s : State) (h : s.sp.toNat - 1 < 16) : (s.pop h).mode = s.mode := rfl
@[simp] theorem State.pop_waitx (s : State) (h : s.sp.toNat - 1 < 16) : (s.pop h).waitx = s.waitx := rfl
@[simp] theorem State.pop_kp (s : State) (h : s.sp.toNat - 1 < 16) : (s.pop h).kp = s.kp := rfl
@[simp] theorem State.pop_fault (s : State) (h : s.sp.toNat - 1 < 16) : (s.pop h).fault = s.fault := rfl
@[simp] theorem State.pop_draws (s : State) (h : s.sp.toNat - 1 < 16) : (s.pop h).draws = s.draws := rfl
@[simp] theorem State.pop_reg (s : State) (h : s.sp.toNat - 1 < 16) (r : RegIdx) : (s.pop h).reg r = s.reg r := rfl

/-! ### State.startWait -/

@[simp] theorem State.startWait_v (s : State) (x : RegIdx) : (s.startWait x).v = s.v := rfl
@[simp] theorem State.startWait_i (s : State) (x : RegIdx) : (s.startWait x).i = s.i := rfl
@[simp] theorem State.startWait_pc (s : State) (x : RegIdx) : (s.startWait x).pc = s.pc := rfl
@[simp] theorem State.startWait_sp (s : State) (x : RegIdx) : (s.startWait x).sp = s.sp := rfl
@[simp] theorem State.startWait_stack (s : State) (x : RegIdx) : (s.startWait x).stack = s.stack := rfl
@[simp] theorem State.startWait_dt (s : State) (x : RegIdx) : (s.startWait x).dt = s.dt := rfl
@[simp] theorem State.startWait_sr (s : State) (x : RegIdx) : (s.startWait x).sr = s.sr := rfl
@[simp] theorem State.startWait_mem (s : State) (x : RegIdx) : (s.startWait x).mem = s.mem := rfl
@[simp] theorem State.startWait_fb (s : State) (x : RegIdx) : (s.startWait x).fb = s.fb := rfl
@[simp] theorem State.startWait_key (s : State) (x : RegIdx) : (s.startWait x).key = s.key := rfl
@[simp] theorem State.startWait_mode (s : State) (x : RegIdx) : (s.startWait x).mode = .awaitKey := rfl
@[simp] theorem State.startWait_waitx (s : State) (x : RegIdx) : (s.startWait x).waitx = x := rfl
@[simp] theorem State.startWait_kp (s : State) (x : RegIdx) : (s.startWait x).kp = none := rfl
@[simp] theorem State.startWait_fault (s : State) (x : RegIdx) : (s.startWait x).fault = s.fault := rfl
@[simp] theorem State.startWait_draws (s : State) (x : RegIdx) : (s.startWait x).draws = s.draws := rfl
@[simp] theorem State.startWait_reg (s : State) (x : RegIdx) (r : RegIdx) : (s.startWait x).reg r = s.reg r := rfl

/-! ### State.endWait -/

@[simp] theorem State.endWait_v (s : State) : (s.endWait).v = s.v := rfl
@[simp] theorem State.endWait_i (s : State) : (s.endWait).i = s.i := rfl
@[simp] theorem State.endWait_pc (s : State) : (s.endWait).pc = s.pc := rfl
@[simp] theorem State.endWait_sp (s : State) : (s.endWait).sp = s.sp := rfl
@[simp] theorem State.endWait_stack (s : State) : (s.endWait).stack = s.stack := rfl
@[simp] theorem State.endWait_dt (s : State) : (s.endWait).dt = s.dt := rfl
@[simp] theorem State.endWait_sr (s : State) : (s.endWait).sr = s.sr := rfl
@[simp] theorem State.endWait_mem (s : State) : (s.endWait).mem = s.mem := rfl
@[simp] theorem State.endWait_fb (s : State) : (s.endWait).fb = s.fb := rfl
@[simp] theorem State.endWait_key (s : State) : (s.endWait).key = s.key := rfl
@[simp] theorem State.endWait_mode (s : State) : (s.endWait).mode = .running := rfl
@[simp] theorem State.endWait_waitx (s : State) : (s.endWait).waitx = 0 := rfl
@[simp] theorem State.endWait_kp (s : State) : (s.endWait).kp = none := rfl
@[simp] theorem State.endWait_fault (s : State) : (s.endWait).fault = s.fault := rfl
@[simp] theorem State.endWait_draws (s : State) : (s.endWait).draws = s.draws := rfl
@[simp] theorem State.endWait_reg (s : State) (r : RegIdx) : (s.endWait).reg r = s.reg r := rfl

/-! ### State.raise -/

@[simp] theorem State.raise_v (s : State) (k : FaultKind) (o a : Option Word) : (s.raise k o a).v = s.v := rfl
@[simp] theorem State.raise_i (s : State) (k : FaultKind) (o a : Option Word) : (s.raise k o a).i = s.i := rfl
@[simp] theorem State.raise_pc (s : State) (k : FaultKind) (o a : Option Word) : (s.raise k o a).pc = s.pc := rfl
@[simp] theorem State.raise_sp (s : State) (k : FaultKind) (o a : Option Word) : (s.raise k o a).sp = s.sp := rfl
@[simp] theorem State.raise_stack (s : State) (k : FaultKind) (o a : Option Word) : (s.raise k o a).stack = s.stack := rfl
@[simp] theorem State.raise_dt (s : State) (k : FaultKind) (o a : Option Word) : (s.raise k o a).dt = s.dt := rfl
@[simp] theorem State.raise_sr (s : State) (k : FaultKind) (o a : Option Word) : (s.raise k o a).sr = s.sr := rfl
@[simp] theorem State.raise_mem (s : State) (k : FaultKind) (o a : Option Word) : (s.raise k o a).mem = s.mem := rfl
@[simp] theorem State.raise_fb (s : State) (k : FaultKind) (o a : Option Word) : (s.raise k o a).fb = s.fb := rfl
@[simp] theorem State.raise_key (s : State) (k : FaultKind) (o a : Option Word) : (s.raise k o a).key = s.key := rfl
@[simp] theorem State.raise_mode (s : State) (k : FaultKind) (o a : Option Word) : (s.raise k o a).mode = .faulted := rfl
@[simp] theorem State.raise_waitx (s : State) (k : FaultKind) (o a : Option Word) : (s.raise k o a).waitx = s.waitx := rfl
@[simp] theorem State.raise_kp (s : State) (k : FaultKind) (o a : Option Word) : (s.raise k o a).kp = s.kp := rfl
@[simp] theorem State.raise_fault (s : State) (k : FaultKind) (o a : Option Word) : (s.raise k o a).fault = some ⟨k, s.pc, o, a⟩ := rfl
@[simp] theorem State.raise_draws (s : State) (k : FaultKind) (o a : Option Word) : (s.raise k o a).draws = s.draws := rfl
@[simp] theorem State.raise_reg (s : State) (k : FaultKind) (o a : Option Word) (r : RegIdx) : (s.raise k o a).reg r = s.reg r := rfl

/-! ### Registers -/

/-- A register write changes its own register and no other (10_state R21). -/
@[simp] theorem State.setReg_reg (s : State) (x r : RegIdx) (b : Byte) :
    (s.setReg x b).reg r = if r = x then b else s.reg r := by
  unfold State.reg
  rw [State.setReg_v, Vector.getElem_set]
  by_cases h : r = x
  · subst h; simp
  · rw [if_neg h, if_neg (fun hv => h (Fin.ext hv.symm))]

@[simp] theorem State.setRegs_reg (s : State) (w : Vector Byte 16) (r : RegIdx) :
    (s.setRegs w).reg r = w[r.val] := rfl

/-- Two states with equal registers have equal register files. -/
theorem State.v_ext (s t : State) (h : ∀ r, s.reg r = t.reg r) : s.v = t.v := by
  apply Vector.ext
  intro k hk
  exact h ⟨k, hk⟩

/-! ### Composite updates over the primitive ones -/

@[simp] theorem State.advance_eq (s : State) : s.advance = s.jump (s.pc + 2) := rfl

@[simp] theorem State.skipIf_eq (s : State) (c : Bool) :
    s.skipIf c = s.jump (s.pc + if c then 4 else 2) := rfl

@[simp] theorem State.setFlag_eq (s : State) (f : Bool) : s.setFlag f = s.setReg VF (flagByte f) := rfl

@[simp] theorem State.finish_eq (s : State) (x : RegIdx) (b : Byte) :
    s.finish x b = (s.setReg x b).jump (s.pc + 2) := rfl

@[simp] theorem State.finishWithFlag_eq (s : State) (x : RegIdx) (b : Byte) (f : Bool) :
    s.finishWithFlag x b f = ((s.setReg x b).setReg VF (flagByte f)).jump (s.pc + 2) := rfl

@[simp] theorem State.raiseIn_eq (s : State) (ins : Instr) (k : FaultKind) (a : Option Word) :
    s.raiseIn ins k a = s.raise k (some (encode ins)) a := rfl

/-- A flag byte is 0x01 or 0x00 (10_state R23). -/
theorem flagByte_eq_or (f : Bool) : flagByte f = 1#8 ∨ flagByte f = 0#8 := by
  cases f <;> simp [flagByte]

@[simp] theorem flagByte_eq_one (f : Bool) : flagByte f = 1#8 ↔ f = true := by
  cases f <;> simp [flagByte]

end Sys2Proof.Machine
end

