-- ==== Sys2Proof/Laws/Ops.lean ====
section
/-! SUPPORT. One lemma per shared operation: everything it can answer. -/

namespace Sys2Proof.Machine

/-- The fetch succeeds exactly when PC + 1 is in memory, with the byte at PC high (20_memory R52). -/
theorem State.fetch_ok (s : State) (h : s.pc.toNat + 2 ≤ 4096) :
    s.fetch = .ok (wordOfBytes (Memory.read s.mem s.pc.toNat) (Memory.read s.mem (s.pc.toNat + 1))) := by
  unfold State.fetch
  rw [(outOfBounds_eq_none s.pc 2).mpr (.inr h)]

/-- The two answers of the fetch. -/
theorem State.fetch_cases (s : State) :
    (s.pc.toNat + 2 ≤ 4096 ∧
      s.fetch = .ok (wordOfBytes (Memory.read s.mem s.pc.toNat) (Memory.read s.mem (s.pc.toNat + 1)))) ∨
    (4096 < s.pc.toNat + 2 ∧
      ∃ addr, outOfBounds s.pc 2 = some addr ∧ s.fetch = .error addr) := by
  by_cases h : s.pc.toNat + 2 ≤ 4096
  · exact .inl ⟨h, s.fetch_ok h⟩
  · right
    refine ⟨by omega, ?_⟩
    cases hb : outOfBounds s.pc 2 with
    | none => rcases (outOfBounds_eq_none s.pc 2).mp hb with h0 | h0 <;> omega
    | some addr => exact ⟨addr, rfl, by unfold State.fetch; rw [hb]⟩

/-- An access at I: the state `done` when the range is in memory, otherwise the fault and nothing else. -/
theorem State.accessAtI_cases (s : State) (ins : Instr) (count : Nat) (done : State) :
    ((count = 0 ∨ s.i.toNat + count ≤ 4096) ∧ s.accessAtI ins count done = .next done) ∨
    (∃ addr, outOfBounds s.i count = some addr ∧
      s.accessAtI ins count done = .next (s.raise .memOutOfBounds (some (encode ins)) (some addr))) := by
  unfold State.accessAtI
  cases hb : outOfBounds s.i count with
  | none => exact .inl ⟨(outOfBounds_eq_none s.i count).mp hb, rfl⟩
  | some addr => exact .inr ⟨addr, rfl, rfl⟩

/-- An access in range gives the state `done`. -/
theorem State.accessAtI_next (s : State) (ins : Instr) (count : Nat) (done : State)
    (h : count = 0 ∨ s.i.toNat + count ≤ 4096) : s.accessAtI ins count done = .next done := by
  unfold State.accessAtI
  rw [(outOfBounds_eq_none s.i count).mpr h]

/-- `step` in RUNNING, after a fetch that succeeds, by what the word decodes to (30_encoding R74). -/
theorem step_running (s : State) (op : Word) (hm : s.mode = .running) (hf : s.fetch = .ok op) :
    step s = match decode op with
      | .error _ => .next (s.raise .unknownOpcode (some op) none)
      | .ok ins => exec ins s := by
  cases hd : decode op <;> simp [step, hm, hf, hd]

/-- The poll of a waiting engine: nothing, or the captured key delivered (44_timers_keys R146). -/
theorem State.poll_cases (s : State) :
    (s.kp = none ∧ s.poll = s) ∨
    (∃ k, s.kp = some k ∧ s.poll = ((s.setReg s.waitx (keyByte k)).jump (s.pc + 2)).endWait) := by
  unfold State.poll
  cases h : s.kp with
  | none => exact .inl ⟨rfl, rfl⟩
  | some k => exact .inr ⟨k, rfl, rfl⟩

/-- The instruction withFetchWord places is the one the next step fetches. -/
theorem State.withFetchWord_mode (s : State) (nbits w : Nat) : (s.withFetchWord nbits w).mode = .running := by
  unfold State.withFetchWord
  cases s.mode <;> simp

end Sys2Proof.Machine
end

