-- ==== Sys2Proof/Laws/PerInstr.lean ====
section
/-! SUPPORT. One lemma per instruction: its word matches the mask and the match value of its own row of the opcode map
(30_encoding R75). -/

namespace Sys2Proof

/-- The word of the instruction is covered by the row R75 gives it. -/
def Laws.RowOfWord.Statement (i : Instr) : Prop := ∃ row, i.row = some row ∧ row.covers (encode i) = true

/-- A word in format A masked to its family. -/
theorem encodeA_masked (f : BitVec 4) (nnn : Addr) : encodeA f nnn &&& (0xF000 : Word) = f ++ 0#12 := by
  unfold encodeA
  rw [show (0xF000 : Word) = BitVec.allOnes 4 ++ 0#12 by decide, BitVec.and_append, BitVec.and_allOnes,
    BitVec.and_zero]

/-- A word in format I masked to its family. -/
theorem encodeI_masked (f : BitVec 4) (x : RegIdx) (kk : Byte) : encodeI f x kk &&& (0xF000 : Word) = f ++ 0#12 := by
  unfold encodeI
  rw [show (0xF000 : Word) = BitVec.allOnes 4 ++ 0#12 by decide, BitVec.and_append, BitVec.and_allOnes,
    BitVec.and_zero]

/-- A word in format X masked to its family and low byte. -/
theorem encodeX_masked (f : BitVec 4) (x : RegIdx) (kk : Byte) :
    encodeI f x kk &&& (0xF0FF : Word) = f ++ (0#4 ++ kk) := by
  unfold encodeI
  rw [show (0xF0FF : Word) = BitVec.allOnes 4 ++ (0#4 ++ BitVec.allOnes 8) by decide, BitVec.and_append,
    BitVec.and_append, BitVec.and_allOnes, BitVec.and_allOnes, BitVec.and_zero]

/-- A word in format D masked to its family. -/
theorem encodeD_masked (f : BitVec 4) (x y : RegIdx) (n : BitVec 4) :
    encodeR f x y n &&& (0xF000 : Word) = f ++ 0#12 := by
  unfold encodeR
  rw [show (0xF000 : Word) = BitVec.allOnes 4 ++ 0#12 by decide, BitVec.and_append, BitVec.and_allOnes,
    BitVec.and_zero]

/-- A word in format R masked to its family and low nibble. -/
theorem encodeR_masked (f : BitVec 4) (x y : RegIdx) (n : BitVec 4) :
    encodeR f x y n &&& (0xF00F : Word) = f ++ (0#4 ++ (0#4 ++ n)) := by
  unfold encodeR
  rw [show (0xF00F : Word) = BitVec.allOnes 4 ++ (0#4 ++ (0#4 ++ BitVec.allOnes 4)) by decide,
    BitVec.and_append, BitVec.and_append, BitVec.and_append, BitVec.and_allOnes, BitVec.and_allOnes,
    BitVec.and_zero, BitVec.and_zero]

theorem Laws.RowOfWord.cls : Laws.RowOfWord.Statement .cls := ⟨⟨"00E0", 0xFFFF, 0x00E0⟩, by decide, by decide⟩

theorem Laws.RowOfWord.ret : Laws.RowOfWord.Statement .ret := ⟨⟨"00EE", 0xFFFF, 0x00EE⟩, by decide, by decide⟩

theorem Laws.RowOfWord.jp (nnn : Addr) : Laws.RowOfWord.Statement (.jp nnn) :=
  ⟨⟨"1nnn", 0xF000, 0x1000⟩, rfl, by simp only [OpcodeRow.covers, encode, encodeA_masked]; decide⟩

theorem Laws.RowOfWord.call (nnn : Addr) : Laws.RowOfWord.Statement (.call nnn) :=
  ⟨⟨"2nnn", 0xF000, 0x2000⟩, rfl, by simp only [OpcodeRow.covers, encode, encodeA_masked]; decide⟩

theorem Laws.RowOfWord.seImm (x : RegIdx) (kk : Byte) : Laws.RowOfWord.Statement (.seImm x kk) :=
  ⟨⟨"3xkk", 0xF000, 0x3000⟩, rfl, by simp only [OpcodeRow.covers, encode, encodeI_masked]; decide⟩

theorem Laws.RowOfWord.sneImm (x : RegIdx) (kk : Byte) : Laws.RowOfWord.Statement (.sneImm x kk) :=
  ⟨⟨"4xkk", 0xF000, 0x4000⟩, rfl, by simp only [OpcodeRow.covers, encode, encodeI_masked]; decide⟩

theorem Laws.RowOfWord.seReg (x : RegIdx) (y : RegIdx) : Laws.RowOfWord.Statement (.seReg x y) :=
  ⟨⟨"5xy0", 0xF00F, 0x5000⟩, rfl, by simp only [OpcodeRow.covers, encode, encodeR_masked]; decide⟩

theorem Laws.RowOfWord.ldImm (x : RegIdx) (kk : Byte) : Laws.RowOfWord.Statement (.ldImm x kk) :=
  ⟨⟨"6xkk", 0xF000, 0x6000⟩, rfl, by simp only [OpcodeRow.covers, encode, encodeI_masked]; decide⟩

theorem Laws.RowOfWord.addImm (x : RegIdx) (kk : Byte) : Laws.RowOfWord.Statement (.addImm x kk) :=
  ⟨⟨"7xkk", 0xF000, 0x7000⟩, rfl, by simp only [OpcodeRow.covers, encode, encodeI_masked]; decide⟩

theorem Laws.RowOfWord.ldReg (x : RegIdx) (y : RegIdx) : Laws.RowOfWord.Statement (.ldReg x y) :=
  ⟨⟨"8xy0", 0xF00F, 0x8000⟩, rfl, by simp only [OpcodeRow.covers, encode, encodeR_masked]; decide⟩

theorem Laws.RowOfWord.orReg (x : RegIdx) (y : RegIdx) : Laws.RowOfWord.Statement (.orReg x y) :=
  ⟨⟨"8xy1", 0xF00F, 0x8001⟩, rfl, by simp only [OpcodeRow.covers, encode, encodeR_masked]; decide⟩

theorem Laws.RowOfWord.andReg (x : RegIdx) (y : RegIdx) : Laws.RowOfWord.Statement (.andReg x y) :=
  ⟨⟨"8xy2", 0xF00F, 0x8002⟩, rfl, by simp only [OpcodeRow.covers, encode, encodeR_masked]; decide⟩

theorem Laws.RowOfWord.xorReg (x : RegIdx) (y : RegIdx) : Laws.RowOfWord.Statement (.xorReg x y) :=
  ⟨⟨"8xy3", 0xF00F, 0x8003⟩, rfl, by simp only [OpcodeRow.covers, encode, encodeR_masked]; decide⟩

theorem Laws.RowOfWord.addReg (x : RegIdx) (y : RegIdx) : Laws.RowOfWord.Statement (.addReg x y) :=
  ⟨⟨"8xy4", 0xF00F, 0x8004⟩, rfl, by simp only [OpcodeRow.covers, encode, encodeR_masked]; decide⟩

theorem Laws.RowOfWord.sub (x : RegIdx) (y : RegIdx) : Laws.RowOfWord.Statement (.sub x y) :=
  ⟨⟨"8xy5", 0xF00F, 0x8005⟩, rfl, by simp only [OpcodeRow.covers, encode, encodeR_masked]; decide⟩

theorem Laws.RowOfWord.shr (x : RegIdx) (y : RegIdx) : Laws.RowOfWord.Statement (.shr x y) :=
  ⟨⟨"8xy6", 0xF00F, 0x8006⟩, rfl, by simp only [OpcodeRow.covers, encode, encodeR_masked]; decide⟩

theorem Laws.RowOfWord.subn (x : RegIdx) (y : RegIdx) : Laws.RowOfWord.Statement (.subn x y) :=
  ⟨⟨"8xy7", 0xF00F, 0x8007⟩, rfl, by simp only [OpcodeRow.covers, encode, encodeR_masked]; decide⟩

theorem Laws.RowOfWord.shl (x : RegIdx) (y : RegIdx) : Laws.RowOfWord.Statement (.shl x y) :=
  ⟨⟨"8xyE", 0xF00F, 0x800E⟩, rfl, by simp only [OpcodeRow.covers, encode, encodeR_masked]; decide⟩

theorem Laws.RowOfWord.sneReg (x : RegIdx) (y : RegIdx) : Laws.RowOfWord.Statement (.sneReg x y) :=
  ⟨⟨"9xy0", 0xF00F, 0x9000⟩, rfl, by simp only [OpcodeRow.covers, encode, encodeR_masked]; decide⟩

theorem Laws.RowOfWord.ldI (nnn : Addr) : Laws.RowOfWord.Statement (.ldI nnn) :=
  ⟨⟨"Annn", 0xF000, 0xA000⟩, rfl, by simp only [OpcodeRow.covers, encode, encodeA_masked]; decide⟩

theorem Laws.RowOfWord.jpV0 (nnn : Addr) : Laws.RowOfWord.Statement (.jpV0 nnn) :=
  ⟨⟨"Bnnn", 0xF000, 0xB000⟩, rfl, by simp only [OpcodeRow.covers, encode, encodeA_masked]; decide⟩

theorem Laws.RowOfWord.rnd (x : RegIdx) (kk : Byte) : Laws.RowOfWord.Statement (.rnd x kk) :=
  ⟨⟨"Cxkk", 0xF000, 0xC000⟩, rfl, by simp only [OpcodeRow.covers, encode, encodeI_masked]; decide⟩

theorem Laws.RowOfWord.drw (x : RegIdx) (y : RegIdx) (n : Fin 16) : Laws.RowOfWord.Statement (.drw x y n) :=
  ⟨⟨"Dxyn", 0xF000, 0xD000⟩, rfl, by simp only [OpcodeRow.covers, encode, encodeD_masked]; decide⟩

theorem Laws.RowOfWord.skp (x : RegIdx) : Laws.RowOfWord.Statement (.skp x) :=
  ⟨⟨"Ex9E", 0xF0FF, 0xE09E⟩, rfl, by simp only [OpcodeRow.covers, encode, encodeX_masked]; decide⟩

theorem Laws.RowOfWord.sknp (x : RegIdx) : Laws.RowOfWord.Statement (.sknp x) :=
  ⟨⟨"ExA1", 0xF0FF, 0xE0A1⟩, rfl, by simp only [OpcodeRow.covers, encode, encodeX_masked]; decide⟩

theorem Laws.RowOfWord.ldVxDt (x : RegIdx) : Laws.RowOfWord.Statement (.ldVxDt x) :=
  ⟨⟨"Fx07", 0xF0FF, 0xF007⟩, rfl, by simp only [OpcodeRow.covers, encode, encodeX_masked]; decide⟩

theorem Laws.RowOfWord.ldVxK (x : RegIdx) : Laws.RowOfWord.Statement (.ldVxK x) :=
  ⟨⟨"Fx0A", 0xF0FF, 0xF00A⟩, rfl, by simp only [OpcodeRow.covers, encode, encodeX_masked]; decide⟩

theorem Laws.RowOfWord.ldDtVx (x : RegIdx) : Laws.RowOfWord.Statement (.ldDtVx x) :=
  ⟨⟨"Fx15", 0xF0FF, 0xF015⟩, rfl, by simp only [OpcodeRow.covers, encode, encodeX_masked]; decide⟩

theorem Laws.RowOfWord.ldStVx (x : RegIdx) : Laws.RowOfWord.Statement (.ldStVx x) :=
  ⟨⟨"Fx18", 0xF0FF, 0xF018⟩, rfl, by simp only [OpcodeRow.covers, encode, encodeX_masked]; decide⟩

theorem Laws.RowOfWord.addI (x : RegIdx) : Laws.RowOfWord.Statement (.addI x) :=
  ⟨⟨"Fx1E", 0xF0FF, 0xF01E⟩, rfl, by simp only [OpcodeRow.covers, encode, encodeX_masked]; decide⟩

theorem Laws.RowOfWord.ldF (x : RegIdx) : Laws.RowOfWord.Statement (.ldF x) :=
  ⟨⟨"Fx29", 0xF0FF, 0xF029⟩, rfl, by simp only [OpcodeRow.covers, encode, encodeX_masked]; decide⟩

theorem Laws.RowOfWord.ldB (x : RegIdx) : Laws.RowOfWord.Statement (.ldB x) :=
  ⟨⟨"Fx33", 0xF0FF, 0xF033⟩, rfl, by simp only [OpcodeRow.covers, encode, encodeX_masked]; decide⟩

theorem Laws.RowOfWord.storeRegs (x : RegIdx) : Laws.RowOfWord.Statement (.storeRegs x) :=
  ⟨⟨"Fx55", 0xF0FF, 0xF055⟩, rfl, by simp only [OpcodeRow.covers, encode, encodeX_masked]; decide⟩

theorem Laws.RowOfWord.loadRegs (x : RegIdx) : Laws.RowOfWord.Statement (.loadRegs x) :=
  ⟨⟨"Fx65", 0xF0FF, 0xF065⟩, rfl, by simp only [OpcodeRow.covers, encode, encodeX_masked]; decide⟩

end Sys2Proof
end

