-- ==== Sys2Proof/Tests/Slice0.lean ====
section
/-! SUPPORT. The model's own tests: ill-formed words, one written-out word per instruction, the vectors of
95_test_vectors (their ids in the names and comments), and for every statement with hypotheses a witness that meets
them. Every expected value is the spec's. -/

namespace Sys2Proof.Tests

open Sys2Proof.Machine

/-! ### Small states -/

/-- The start state of the vectors: after reset, with a word at PC = 0x0200 (95_test_vectors, conventions). -/
def placed (w : Nat) : State := State.reset.withFetchWord 16 w

/-- The same with some registers set. -/
def placedWith (w : Nat) (regs : List (RegIdx × Byte)) : State :=
  regs.foldl (fun s r => s.setReg r.1 r.2) (placed w)

/-- The same with I set. -/
def placedAt (w : Nat) (i : Word) (regs : List (RegIdx × Byte)) : State := (placedWith w regs).setI i

/-- Bytes placed in memory. -/
def storing (s : State) (a : Nat) (bytes : List Byte) : State := s.setMem (Memory.writeBytes s.mem a bytes)

/-- A view of the next state of one step. -/
def seen {α : Type} (view : State → α) (s : State) : Option α :=
  match step s with
  | .next t => some (view t)
  | .fault _ => none
  | .refused _ => none

/-- The next state of an instruction, for the witnesses. -/
def after (ins : Instr) (s : State) : State :=
  match exec ins s with
  | .next t => t
  | .fault _ => s
  | .refused _ => s

/-- A key held down. -/
def holding (k : KeyCode) (s : State) : State := { s with key := s.key.set k.val true }

/-- Pixels set on a clear screen. -/
def lit (pixels : List (Fin 32 × Fin 64)) (s : State) : State :=
  s.setFb (pixels.foldl (fun fb p => Framebuffer.flip fb p.1 p.2) Framebuffer.clear)

/-- The set pixels of one row. -/
def rowPixels (r : Fin 32) (s : State) : List Nat := (List.range 64).filter fun c => Framebuffer.get s.fb r (Fin.ofNat 64 c)

/-- A state inside a subroutine called from 0x0200: one live return address. -/
def inSubroutine (w : Nat) : State := { placed w with stack := (placed w).stack.set 0 0x0202, sp := 1 }

/-- A state whose call stack is full. -/
def fullStack (w : Nat) : State := { placed w with sp := 16 }

/-- A state that waits for a key for V1. -/
def waiting : State := (placed 0xF10A).startWait 1

/-- A faulted state. -/
def stopped : State := { (placed 0x0000).raise .unknownOpcode (some 0x0000) none with dt := 5 }

/-! ### Ill-formed words (30_encoding R76, vectors TE2 to TE6 and S12) -/

theorem test_wf_family0 : [0x0000#16, 0x0123#16, 0x01E0#16, 0x0FEE#16, 0x00E1#16].map wellFormedWord
    = [false, false, false, false, false] := by decide

theorem test_wf_family5 : [0x5001#16, 0x500F#16].map wellFormedWord = [false, false] := by decide

theorem test_wf_family8 : [0x8008#16, 0x800F#16, 0x812D#16].map wellFormedWord = [false, false, false] := by decide

theorem test_wf_family9 : [0x9001#16, 0x912F#16].map wellFormedWord = [false, false] := by decide

theorem test_wf_familyE : [0xE000#16, 0xE09F#16, 0xE19F#16].map wellFormedWord = [false, false, false] := by decide

theorem test_wf_familyF : [0xF000#16, 0xF030#16, 0xF075#16, 0xFFFF#16].map wellFormedWord
    = [false, false, false, false] := by decide

theorem test_wf_legal : [0x00E0#16, 0x00EE#16, 0x5120#16, 0x812E#16, 0x9FF0#16, 0xEFA1#16, 0xF065#16].map wellFormedWord
    = [true, true, true, true, true, true, true] := by decide

/-! ### Decoding: one word per row of 30_encoding R75, written out from its pattern -/

theorem test_decode_cls : decode 0b0000000011100000#16 = .ok .cls := by decide
theorem test_decode_ret : decode 0b0000000011101110#16 = .ok .ret := by decide
theorem test_decode_jp : decode 0b0001101010111100#16 = .ok (.jp 0xABC#12) := by decide
theorem test_decode_call : decode 0b0010010100110001#16 = .ok (.call 0x531#12) := by decide
theorem test_decode_seImm : decode 0b0011101001000010#16 = .ok (.seImm 10 0x42#8) := by decide
theorem test_decode_sneImm : decode 0b0100000111110000#16 = .ok (.sneImm 1 0xF0#8) := by decide
theorem test_decode_seReg : decode 0b0101101010110000#16 = .ok (.seReg 10 11) := by decide
theorem test_decode_ldImm : decode 0b0110111100101100#16 = .ok (.ldImm 15 0x2C#8) := by decide
theorem test_decode_addImm : decode 0b0111001000000001#16 = .ok (.addImm 2 0x01#8) := by decide
theorem test_decode_ldReg : decode 0b1000001101000000#16 = .ok (.ldReg 3 4) := by decide
theorem test_decode_orReg : decode 0b1000000100100001#16 = .ok (.orReg 1 2) := by decide
theorem test_decode_andReg : decode 0b1000111000010010#16 = .ok (.andReg 14 1) := by decide
theorem test_decode_xorReg : decode 0b1000011110000011#16 = .ok (.xorReg 7 8) := by decide
theorem test_decode_addReg : decode 0b1000000111110100#16 = .ok (.addReg 1 15) := by decide
theorem test_decode_sub : decode 0b1000110001010101#16 = .ok (.sub 12 5) := by decide
theorem test_decode_shr : decode 0b1000000100100110#16 = .ok (.shr 1 2) := by decide
theorem test_decode_subn : decode 0b1000011001010111#16 = .ok (.subn 6 5) := by decide
theorem test_decode_shl : decode 0b1000111111111110#16 = .ok (.shl 15 15) := by decide
theorem test_decode_sneReg : decode 0b1001001111000000#16 = .ok (.sneReg 3 12) := by decide
theorem test_decode_ldI : decode 0b1010001011110000#16 = .ok (.ldI 0x2F0#12) := by decide
theorem test_decode_jpV0 : decode 0b1011001100000001#16 = .ok (.jpV0 0x301#12) := by decide
theorem test_decode_rnd : decode 0b1100001100001111#16 = .ok (.rnd 3 0x0F#8) := by decide
theorem test_decode_drw : decode 0b1101000100100101#16 = .ok (.drw 1 2 5) := by decide
theorem test_decode_skp : decode 0b1110001010011110#16 = .ok (.skp 2) := by decide
theorem test_decode_sknp : decode 0b1110010010100001#16 = .ok (.sknp 4) := by decide
theorem test_decode_ldVxDt : decode 0b1111001100000111#16 = .ok (.ldVxDt 3) := by decide
theorem test_decode_ldVxK : decode 0b1111000100001010#16 = .ok (.ldVxK 1) := by decide
theorem test_decode_ldDtVx : decode 0b1111100100010101#16 = .ok (.ldDtVx 9) := by decide
theorem test_decode_ldStVx : decode 0b1111010000011000#16 = .ok (.ldStVx 4) := by decide
theorem test_decode_addI : decode 0b1111000100011110#16 = .ok (.addI 1) := by decide
theorem test_decode_ldF : decode 0b1111101000101001#16 = .ok (.ldF 10) := by decide
theorem test_decode_ldB : decode 0b1111001100110011#16 = .ok (.ldB 3) := by decide
theorem test_decode_storeRegs : decode 0b1111111101010101#16 = .ok (.storeRegs 15) := by decide
theorem test_decode_loadRegs : decode 0b1111001001100101#16 = .ok (.loadRegs 2) := by decide

/-- TE2 to TE6: the decoder refuses by name. -/
theorem test_decode_illegal : [0x01E0#16, 0x500F#16, 0x812D#16, 0x9001#16, 0xE19F#16, 0xF075#16].map decode
    = [.error (.unknownOpcode 0x01E0#16), .error (.unknownOpcode 0x500F#16), .error (.unknownOpcode 0x812D#16),
       .error (.unknownOpcode 0x9001#16), .error (.unknownOpcode 0xE19F#16), .error (.unknownOpcode 0xF075#16)] := by
  decide

/-- The table's numbering: a row's word is the opcode itself. -/
theorem test_table_word : decodeTableWord 16 0x6A2C = some (.ldImm 10 0x2C#8) := by decide

/-! ### Control flow -/

/-- TC1. -/
theorem test_jp : seen (·.pc) (placed 0x1ABC) = some 0x0ABC := by decide
/-- S8, first step. -/
theorem test_call : seen (fun s => (s.pc, s.sp, s.stack[0])) (placed 0x2204) = some (0x0204, 1, 0x0202) := by decide
/-- TC10. -/
theorem test_call_overflow : seen (fun s => (s.fault, s.sp, s.pc)) (fullStack 0x2300)
    = some (some ⟨.stackOverflow, 0x0200, some 0x2300, none⟩, 16, 0x0200) := by decide
/-- TC12, with the return address of S8. -/
theorem test_ret : seen (fun s => (s.pc, s.sp, s.stack[0])) (inSubroutine 0x00EE) = some (0x0202, 0, 0x0202) := by decide
/-- TC9. -/
theorem test_ret_underflow : seen (fun s => (s.fault, s.sp)) (placed 0x00EE)
    = some (some ⟨.stackUnderflow, 0x0200, some 0x00EE, none⟩, 0) := by decide
/-- S7, both ways. -/
theorem test_seImm : [0x42#8, 0x43#8].map (fun v => seen (·.pc) (placedWith 0x3A42 [(10, v)]))
    = [some 0x0204, some 0x0202] := by decide
/-- TC6, both ways. -/
theorem test_sneImm : [0x42#8, 0x43#8].map (fun v => seen (·.pc) (placedWith 0x4A42 [(10, v)]))
    = [some 0x0202, some 0x0204] := by decide
/-- TC7. -/
theorem test_seReg : seen (·.pc) (placedWith 0x5AB0 [(10, 1), (11, 1)]) = some 0x0204 := by decide
/-- TC7. -/
theorem test_sneReg : seen (·.pc) (placedWith 0x9AB0 [(10, 1), (11, 1)]) = some 0x0202 := by decide
/-- TC4: the sum is not cut to 12 bits. -/
theorem test_jpV0 : seen (·.pc) (placedWith 0xBFFF [(0, 0xFF)]) = some 0x10FE := by decide

/-! ### Load, arithmetic, logic -/

/-- S1. -/
theorem test_ldImm : seen (fun s => (s.reg 10, s.pc)) (placed 0x6A2C) = some (0x2C, 0x0202) := by decide
/-- S2. -/
theorem test_addImm : seen (fun s => (s.reg 2, s.reg VF)) (placedWith 0x7202 [(2, 0xFF)]) = some (0x01, 0x00) := by decide
/-- TA2: register F is an ordinary destination. -/
theorem test_addImm_vf : seen (·.reg VF) (placed 0x7FFF) = some 0xFF := by decide
/-- TA3. -/
theorem test_ldReg : seen (·.reg 3) (placedWith 0x8340 [(4, 0x9C)]) = some 0x9C := by decide
/-- TA4. -/
theorem test_orReg : seen (·.reg 1) (placedWith 0x8121 [(1, 0xF0), (2, 0x0F)]) = some 0xFF := by decide
/-- TA8: a logic result into VF. -/
theorem test_orReg_vf : seen (·.reg VF) (placedWith 0x8F11 [(15, 0x0F), (1, 0xF0)]) = some 0xFF := by decide
/-- TA5. -/
theorem test_andReg : seen (·.reg 1) (placedWith 0x8122 [(1, 0xF0), (2, 0x3C)]) = some 0x30 := by decide
/-- TA6. -/
theorem test_xorReg : seen (·.reg 1) (placedWith 0x8123 [(1, 0xF0), (2, 0x3C)]) = some 0xCC := by decide
/-- TA9 and TA10: sums 256 and 255. -/
theorem test_addReg : [(0x80#8, 0x80#8), (0xFE#8, 0x01#8)].map
    (fun p => seen (fun s => (s.reg 1, s.reg VF)) (placedWith 0x8124 [(1, p.1), (2, p.2)]))
    = [some (0x00, 0x01), some (0xFF, 0x00)] := by decide
/-- TA13: the flag overwrites the result; TA14: the old VF is the addend. -/
theorem test_addReg_vf : (seen (·.reg VF) (placedWith 0x8F14 [(15, 0x10), (1, 0x02)]),
    seen (fun s => (s.reg 1, s.reg VF)) (placedWith 0x81F4 [(1, 0xFF), (15, 0x01)]))
    = (some 0x00, some (0x00, 0x01)) := by decide
/-- S5, S6 and TA15: greater, less, equal. -/
theorem test_sub : [(0x05#8, 0x03#8), (0x03#8, 0x05#8), (0x07#8, 0x07#8)].map
    (fun p => seen (fun s => (s.reg 1, s.reg VF)) (placedWith 0x8125 [(1, p.1), (2, p.2), (15, 0x01)]))
    = [some (0x02, 0x01), some (0xFE, 0x00), some (0x00, 0x00)] := by decide
/-- TA17. -/
theorem test_sub_vf : seen (·.reg VF) (placedWith 0x8F25 [(15, 0x05), (2, 0x03)]) = some 0x01 := by decide
/-- TA22: V2 is ignored. -/
theorem test_shr : seen (fun s => (s.reg 1, s.reg VF)) (placedWith 0x8126 [(1, 0xFF), (2, 0x00)])
    = some (0x7F, 0x01) := by decide
/-- TA25. -/
theorem test_shr_vf : seen (·.reg VF) (placedWith 0x8F06 [(15, 0x02)]) = some 0x00 := by decide
/-- TA18 and TA19. -/
theorem test_subn : [(0x03#8, 0x05#8), (0x05#8, 0x03#8)].map
    (fun p => seen (fun s => (s.reg 1, s.reg VF)) (placedWith 0x8127 [(1, p.1), (2, p.2)]))
    = [some (0x02, 0x01), some (0xFE, 0x00)] := by decide
/-- TA23: V2 is ignored. -/
theorem test_shl : seen (fun s => (s.reg 1, s.reg VF)) (placedWith 0x812E [(1, 0xFF), (2, 0x00)])
    = some (0xFE, 0x01) := by decide
/-- TA27. -/
theorem test_shl_vf : seen (·.reg VF) (placedWith 0x8FFE [(15, 0x7F)]) = some 0x00 := by decide
/-- TA29: any drawn byte. -/
theorem test_rnd_zero : (after (.rnd 3 0x00) (placedWith 0xC300 [(3, 0x55)])).reg 3 = 0x00 := by
  have h : (after (.rnd 3 0x00) (placedWith 0xC300 [(3, 0x55)])).reg 3 = Config.randomByte 0 &&& 0x00#8 := rfl
  rw [h, BitVec.and_zero]; rfl
/-- TA30 for any drawn byte: a mask of FF keeps it. -/
theorem test_rnd_full : (after (.rnd 3 0xFF) (placed 0xC3FF)).reg 3 = Config.randomByte 0 := by
  have h : (after (.rnd 3 0xFF) (placed 0xC3FF)).reg 3 = Config.randomByte 0 &&& 0xFF#8 := rfl
  rw [h]; exact BitVec.and_allOnes

/-! ### Index and memory -/

/-- TM1. -/
theorem test_ldI : seen (·.i) (placed 0xA2F0) = some 0x02F0 := by decide
/-- TM2 and TM3: 0x0FFF + 1 and the 16-bit wrap. -/
theorem test_addI : [0x0FFF#16, 0xFFFF#16].map (fun i => seen (fun s => (s.i, s.reg VF)) (placedAt 0xF11E i [(1, 1)]))
    = [some (0x1000, 0x00), some (0x0000, 0x00)] := by decide
/-- TM4: the low nibble. -/
theorem test_ldF : [0x1A#8, 0x0F#8].map (fun v => seen (·.i) (placedWith 0xF129 [(1, v)]))
    = [some 0x0032, some 0x004B] := by decide
/-- S14 and TM5, the highest legal base. -/
theorem test_ldB : (seen (fun s => Memory.readBytes s.mem 0x300 3) (placedAt 0xF333 0x0300 [(3, 0x9C)]),
    seen (fun s => Memory.readBytes s.mem 0xFFD 3) (placedAt 0xF033 0x0FFD [(0, 0x7B)]))
    = (some [0x01, 0x05, 0x06], some [0x01, 0x02, 0x03]) := by decide
/-- TM6: one byte too high, nothing written. -/
theorem test_ldB_fault : seen (fun s => (s.fault, Memory.readBytes s.mem 0xFFE 2)) (placedAt 0xF033 0x0FFE [(0, 0x7B)])
    = some (some ⟨.memOutOfBounds, 0x0200, some 0xF033, some 0x1000⟩, [0x00, 0x00]) := by decide
/-- S13, the store. -/
theorem test_storeRegs : seen (fun s => (Memory.readBytes s.mem 0x400 5, s.i))
    (placedAt 0xF355 0x0400 [(0, 0x11), (1, 0x22), (2, 0x33), (3, 0x44), (4, 0x55)])
    = some ([0x11, 0x22, 0x33, 0x44, 0x00], 0x0400) := by decide
/-- TM9: two bytes at the last address. -/
theorem test_storeRegs_fault : seen (fun s => (s.fault, Memory.read s.mem 0xFFF)) (placedAt 0xF155 0x0FFF [(0, 0xAB), (1, 0xCD)])
    = some (some ⟨.memOutOfBounds, 0x0200, some 0xF155, some 0x1000⟩, 0x00) := by decide
/-- TM15. -/
theorem test_loadRegs : seen (fun s => (s.reg 0, s.reg 1, s.reg 2, s.reg 3))
    (storing (placedAt 0xF265 0x0400 [(3, 0x77)]) 0x400 [0xAA, 0xBB, 0xCC]) = some (0xAA, 0xBB, 0xCC, 0x77) := by decide
/-- TM12: the default font. -/
theorem test_loadRegs_font : seen (fun s => s.v.toList) (placed 0xFF65)
    = some [0xF0, 0x90, 0x90, 0x90, 0xF0, 0x20, 0x60, 0x20, 0x20, 0x70, 0xF0, 0x10, 0xF0, 0x80, 0xF0, 0xF0] := by decide

/-! ### Display -/

/-- TD1. -/
theorem test_cls : seen (fun s => (rowPixels 3 s, rowPixels 31 s, s.pc)) (lit [(3, 3), (31, 63)] (placed 0x00E0))
    = some ([], [], 0x0202) := by decide
/-- S10: the sprite wraps at the right edge. -/
theorem test_drw_wraps : seen (fun s => (rowPixels 5 s, s.reg VF))
    (storing (placedAt 0xD011 0x0300 [(0, 0x3C), (1, 0x05)]) 0x300 [0xFF])
    = some ([0, 1, 2, 3, 60, 61, 62, 63], 0x00) := by decide
/-- TD8, first draw: overlap erases and collides. -/
theorem test_drw_collides : seen (fun s => (rowPixels 0 s, s.reg VF))
    (storing (lit [(0, 0), (0, 1), (0, 2), (0, 3)] (placedAt 0xD011 0x0300 [])) 0x300 [0xF0])
    = some ([], 0x01) := by decide

/-! ### Timers and keys -/

/-- TK1. -/
theorem test_ldVxDt : seen (fun s => (s.reg 3, s.dt)) ((placed 0xF307).setDt 0x2A) = some (0x2A, 0x2A) := by decide
/-- TK2. -/
theorem test_ldDtVx : seen (·.dt) (placedWith 0xF015 [(0, 0x0A)]) = some 0x0A := by decide
/-- TK3. -/
theorem test_ldStVx : seen (fun s => (s.sr, s.sound)) (placedWith 0xF418 [(4, 0x1E)]) = some (0x1E, true) := by decide
/-- TK6 and TK8: key 5 named by 05 and by 15. -/
theorem test_skp : [0x05#8, 0x15#8, 0x06#8].map (fun v => seen (·.pc) (holding 5 (placedWith 0xE29E [(2, v)])))
    = [some 0x0204, some 0x0204, some 0x0202] := by decide
/-- TK6 and TK7. -/
theorem test_sknp : (seen (·.pc) (holding 5 (placedWith 0xE2A1 [(2, 0x05)])), seen (·.pc) (placedWith 0xE2A1 [(2, 0x05)]))
    = (some 0x0202, some 0x0204) := by decide
/-- TK9: the wait starts. -/
theorem test_ldVxK : seen (fun s => (s.mode, s.waitx, s.kp, s.pc, s.status)) (holding 7 (placed 0xF10A))
    = some (Mode.awaitKey, 1, none, 0x0200, .blocked) := by decide
/-- TK11, the delivery after the new press. -/
theorem test_poll : seen (fun s => (s.reg 1, s.pc, s.mode, s.status)) (waiting.keyEvent 7 true)
    = some (0x07, 0x0202, Mode.running, .ok) := by decide
/-- TK4 and TK5. -/
theorem test_tick : (({ placed 0 with sr := 1 } : State).tick.sr, ({ placed 0 with sr := 3 } : State).tick.dt,
    ({ placed 0 with sr := 3 } : State).tick.sr) = (0, 0, 2) := by decide
/-- TK10 (a held key), TK12 (the first press) and TK14 (outside a wait). -/
theorem test_keyEvent : (((holding 7 waiting).keyEvent 7 true).kp, ((waiting.keyEvent 3 true).keyEvent 9 true).kp,
    ((placed 0).keyEvent 3 true).kp) = (none, some 3, none) := by decide
/-- TK15. -/
theorem test_frozen : ((stopped.tick).dt, (stopped.keyEvent 2 true).keyDown 2, seen (·.fault) stopped)
    = (5, false, some stopped.fault) := by decide

/-! ### Fetch -/

/-- S12. -/
theorem test_unknownOpcode : seen (fun s => (s.fault, s.mode, s.pc)) (placed 0x5001)
    = some (some ⟨.unknownOpcode, 0x0200, some 0x5001, none⟩, Mode.faulted, 0x0200) := by decide
/-- TE7: the last fetchable address. -/
theorem test_fetch_last : seen (·.pc) ((storing (placed 0) 0xFFE [0x12, 0x00]).jump 0x0FFE) = some 0x0200 := by decide
/-- TE8 and TC4: a fetch at 4095 and above memory. -/
theorem test_fetch_fault : ((seen (·.fault) ((placed 0).jump 0x0FFF)), (seen (·.fault) ((placed 0).jump 0x10FE)))
    = (some (some ⟨.memOutOfBounds, 0x0FFF, none, some 0x1000⟩), some (some ⟨.memOutOfBounds, 0x10FE, none, some 0x10FE⟩)) := by
  decide
/-- TC14: a fetch at an odd address. -/
theorem test_fetch_odd : seen (·.fault) ((storing (placed 0x1201) 0x202 [0x60, 0x12]).jump 0x0201)
    = some (some ⟨.unknownOpcode, 0x0201, some 0x0160, none⟩) := by decide
/-- P5b: the state after reset runs an empty program, which faults at once. -/
theorem test_empty_program : seen (·.fault) State.reset
    = some (some ⟨.unknownOpcode, 0x0200, some 0x0000, none⟩) := by decide

/-! ### Witnesses: states and operands that meet the hypotheses of the statements, each clause at its boundary -/

theorem witness_EncodeUndoesDecode : decode 0xD125#16 = .ok (.drw 1 2 5) := by decide

theorem witness_DecodeAcceptsExactlyMappedWords : wellFormedWord 0x8FFE#16 = true ∧ wellFormedWord 0x8FFF#16 = false := by
  decide

theorem witness_OpcodeRowsNeverOverlap : (∃ row ∈ opcodeMap, row.covers 0x00E0#16 = true) ∧ opcodeMap.length = 34 := by
  decide

/-- One word of each clause, and the legal neighbour of each. -/
theorem witness_IllegalWordsAreThoseListed :
    [0x00EF#16, 0x5001#16, 0x800F#16, 0x9001#16, 0xE0A0#16, 0xF066#16].map wellFormedWord
      = [false, false, false, false, false, false] ∧
    [0x00EE#16, 0x5000#16, 0x800E#16, 0x9000#16, 0xE0A1#16, 0xF065#16].map wellFormedWord
      = [true, true, true, true, true, true] := by decide

theorem witness_StepRunsDecodedInstruction : (placed 0x6A2C).mode = .running ∧ (placed 0x6A2C).pc.toNat ≤ 4094 ∧
    decode (wordOfBytes (Memory.read (placed 0x6A2C).mem (placed 0x6A2C).pc.toNat)
      (Memory.read (placed 0x6A2C).mem ((placed 0x6A2C).pc.toNat + 1))) = .ok (.ldImm 10 0x2C) := by decide

/-- PC = 4094, 4095 and 4096, in RUNNING. -/
theorem witness_FetchIsBigEndianAndBounded :
    ((placed 0).jump 0x0FFE).pc.toNat ≤ 4094 ∧
    (((placed 0).jump 0x0FFF).pc.toNat = 4095 ∧ ((placed 0).jump 0x0FFF).mode = .running) ∧
    (4096 ≤ ((placed 0).jump 0x1000).pc.toNat ∧ ((placed 0).jump 0x1000).mode = .running) := by decide

theorem witness_IllegalWordRaisesUnknownOpcode :
    ((placed 0x5001).mode = .running ∧ (placed 0x5001).fetch = .ok 0x5001 ∧ wellFormedWord 0x5001 = false) ∧
    ((placed 0x00EE).mode = .running ∧ (placed 0x00EE).fetch = .ok 0x00EE ∧ wellFormedWord 0x00EE = true ∧
      (placed 0x00EE).fault = none ∧ step (placed 0x00EE) = .next (after .ret (placed 0x00EE)) ∧
      (after .ret (placed 0x00EE)).fault = some ⟨.stackUnderflow, 0x0200, some 0x00EE, none⟩) := by
  refine ⟨by decide, by decide, by decide, by decide, by decide, rfl, by decide⟩

theorem witness_FaultedMachineIsFrozen : stopped.mode = .faulted ∧
    ∀ e ∈ [Event.step, .tick, .key 2 true], ∀ program, e ≠ .reset program := by
  refine ⟨by decide, ?_⟩
  intro e he program
  fin_cases he <;> exact Event.noConfusion

/-- A state that is about to store V0..V3 at 0x0400. -/
def storer : State := placedAt 0xF355 0x0400 [(0, 0x11), (1, 0x22), (2, 0x33), (3, 0x44)]

theorem witness_StoredBytesAreFetched : Memory.wf storer.mem ∧ (2 : Fin 16).val + 1 < 16 ∧
    exec (.storeRegs 3) storer = .next (after (.storeRegs 3) storer) ∧ storer.mode ≠ .faulted ∧
    (after (.storeRegs 3) storer).mode ≠ .faulted ∧ (2 : Fin 16).val + 1 ≤ (3 : RegIdx).val := by
  refine ⟨by decide, by decide, rfl, by decide, by decide, by decide⟩

theorem witness_FaultEntryIsPrecise : (fullStack 0x2300).mode ≠ .faulted ∧
    exec (.call 0x300) (fullStack 0x2300) = .next (after (.call 0x300) (fullStack 0x2300)) ∧
    (after (.call 0x300) (fullStack 0x2300)).mode = .faulted := by
  refine ⟨by decide, rfl, by decide⟩

/-- Each of the three clauses: CALL, RET, and a memory instruction at the first address out of its range. -/
theorem witness_EachInstructionRaisesOnlyItsOwnFault :
    (exec (.call 0x300) (fullStack 0x2300) = .next (after (.call 0x300) (fullStack 0x2300)) ∧
      (fullStack 0x2300).mode ≠ .faulted ∧ (after (.call 0x300) (fullStack 0x2300)).mode = .faulted) ∧
    (exec .ret (placed 0x00EE) = .next (after .ret (placed 0x00EE)) ∧
      (placed 0x00EE).mode ≠ .faulted ∧ (after .ret (placed 0x00EE)).mode = .faulted) ∧
    (exec (.ldB 0) (placedAt 0xF033 0x0FFE []) = .next (after (.ldB 0) (placedAt 0xF033 0x0FFE [])) ∧
      (placedAt 0xF033 0x0FFE []).mode ≠ .faulted ∧ (after (.ldB 0) (placedAt 0xF033 0x0FFE [])).mode = .faulted) := by
  refine ⟨⟨rfl, by decide, by decide⟩, ⟨rfl, by decide, by decide⟩, ⟨rfl, by decide, by decide⟩⟩

theorem witness_CallAtCapacityOverflows : (fullStack 0x2300).sp = 16 := by decide

theorem witness_ReturnWhenEmptyUnderflows : (placed 0x00EE).sp = 0 := by decide

/-- The first address out of range for LD B, LD [I], LD Vx,[I] and DRW, and the last one in range beside it. -/
theorem witness_MemoryRangeFaults :
    ([(Instr.ldB 0, 0x0FFE#16), (.storeRegs 1, 0x0FFF#16), (.loadRegs 0, 0x1000#16), (.drw 0 0 2, 0x0FFF#16)].all fun p =>
      decide (0 < bytesAtI p.1 ∧ 4095 < (placedAt 0 p.2 []).i.toNat + bytesAtI p.1 - 1)) = true ∧
    ([(Instr.ldB 0, 0x0FFD#16), (.storeRegs 1, 0x0FFE#16), (.loadRegs 0, 0x0FFF#16), (.drw 0 0 2, 0x0FFE#16)].all fun p =>
      decide (0 < bytesAtI p.1 ∧ ¬ 4095 < (placedAt 0 p.2 []).i.toNat + bytesAtI p.1 - 1)) = true := by decide

/-- SP = 17, SP = 16, and an instruction that is neither CALL nor RET. -/
theorem witness_OnlyStackPointerAboveSixteenStops : 16 < ({ placed 0 with sp := 17 } : State).sp.toNat ∧
    (fullStack 0).sp.toNat ≤ 16 ∧ Instr.cls ≠ .ret ∧ ∀ nnn, Instr.cls ≠ .call nnn := by
  refine ⟨by decide, by decide, by decide, fun _ => Instr.noConfusion⟩

/-- SP = 0 and SP = 15. -/
theorem witness_CallPushesReturnAddress : (placed 0x2300).sp.toNat < 16 ∧
    ({ placed 0x2300 with sp := 15 } : State).sp.toNat < 16 := by decide

/-- SP = 1 and SP = 16. -/
theorem witness_ReturnPopsReturnAddress : (inSubroutine 0x00EE).sp.toNat = (0 : Fin 16).val + 1 ∧
    (fullStack 0x00EE).sp.toNat = (15 : Fin 16).val + 1 := by decide

theorem witness_CallThenReturnResumes : (placed 0x2204).sp.toNat < 16 := by decide

/-- The key named by 05 and by 15. -/
theorem witness_SkipsFollowTheirConditions : (5 : KeyCode).val = ((placedWith 0xE19E [(1, 0x05)]).reg 1).toNat % 16 ∧
    (5 : KeyCode).val = ((placedWith 0xE19E [(1, 0x15)]).reg 1).toNat % 16 := by decide

/-- Both kinds of destination of the flag instructions. -/
theorem witness_AddSetsCarry : (0 : RegIdx) ≠ VF ∧ ¬ (15 : RegIdx) ≠ VF := by decide

theorem witness_SubtractSetsStrictlyGreater : (14 : RegIdx) ≠ VF ∧ ¬ (15 : RegIdx) ≠ VF := by decide

theorem witness_ShiftRightShiftsOutBitZero : (1 : RegIdx) ≠ VF ∧ ¬ (15 : RegIdx) ≠ VF := by decide

theorem witness_ReverseSubtractSetsStrictlyGreater : (2 : RegIdx) ≠ VF ∧ ¬ (15 : RegIdx) ≠ VF := by decide

theorem witness_ShiftLeftShiftsOutBitSeven : (3 : RegIdx) ≠ VF ∧ ¬ (15 : RegIdx) ≠ VF := by decide

/-- A flag instruction, and LD VF, kk, which changes VF as a destination. -/
theorem witness_OnlySixInstructionsWriteTheFlag :
    (exec (.addReg 15 1) (placed 0) = .next (after (.addReg 15 1) (placed 0)) ∧
      (after (.addReg 15 1) (placed 0)).mode ≠ .faulted ∧ writesFlag (.addReg 15 1) = true) ∧
    (exec (.ldImm 15 9) (placed 0) = .next (after (.ldImm 15 9) (placed 0)) ∧
      (after (.ldImm 15 9) (placed 0)).mode ≠ .faulted ∧ writesFlag (.ldImm 15 9) = false ∧
      (after (.ldImm 15 9) (placed 0)).reg VF ≠ (placed 0).reg VF) := by
  refine ⟨⟨rfl, by decide, by decide⟩, ⟨rfl, by decide, by decide, by decide⟩⟩

/-- I = 4093 and I = 4094. -/
theorem witness_DecimalDigitsAreStored : Memory.wf (placedAt 0xF033 0x0FFD []).mem ∧
    (placedAt 0xF033 0x0FFD []).i.toNat ≤ 4093 ∧ Memory.wf (placedAt 0xF033 0x0FFE []).mem ∧
    4093 < (placedAt 0xF033 0x0FFE []).i.toNat := by decide

/-- The last base of sixteen registers. -/
theorem witness_RegistersAreStored : Memory.wf (placedAt 0xFF55 0x0FF0 []).mem ∧
    (placedAt 0xFF55 0x0FF0 []).i.toNat + (15 : RegIdx).val ≤ 4095 := by decide

theorem witness_RegistersAreLoaded : (placedAt 0xF065 0x0FFF []).i.toNat + (0 : RegIdx).val ≤ 4095 ∧
    (0 : RegIdx) ≤ 0 ∧ (0 : RegIdx) < 1 := by decide

/-- Stored, the registers cleared, and loaded again. -/
theorem witness_StoreThenLoadRecoversRegisters :
    Memory.wf storer.mem ∧ storer.mode ≠ .faulted ∧ (after (.storeRegs 3) storer).mode ≠ .faulted ∧
    exec (.storeRegs 3) storer = .next (after (.storeRegs 3) storer) ∧
    ((after (.storeRegs 3) storer).setRegs (Vector.replicate 16 0)).mem = (after (.storeRegs 3) storer).mem ∧
    ((after (.storeRegs 3) storer).setRegs (Vector.replicate 16 0)).i = storer.i ∧
    exec (.loadRegs 3) ((after (.storeRegs 3) storer).setRegs (Vector.replicate 16 0))
      = .next (after (.loadRegs 3) ((after (.storeRegs 3) storer).setRegs (Vector.replicate 16 0))) := by
  refine ⟨by decide, by decide, by decide, rfl, rfl, rfl, rfl⟩

/-- Row count 0 at any I, and the last byte of memory as a one-row sprite. -/
theorem witness_DrawInvertsExactlyTheCoveredPixels :
    ((0 : Fin 16) = 0 ∨ (placedAt 0xD120 0xFFFF []).i.toNat + (0 : Fin 16).val - 1 ≤ 4095) ∧
    ((1 : Fin 16) = 0 ∨ (placedAt 0xD121 0x0FFF []).i.toNat + (1 : Fin 16).val - 1 ≤ 4095) := by decide

/-- A state with one sprite byte 80 at 0x0300, to be drawn at (0, 0) over a set pixel (0, 0). -/
def sprite : State := storing (lit [(0, 0)] (placedAt 0xD011 0x0300 [])) 0x300 [0x80]

/-- The sprite's bit covers pixel (0, 0), which is set: the collision clause is met. -/
theorem witness_CollisionIsASetPixelUnderTheSprite : sprite.i.toNat + (1 : Fin 16).val - 1 ≤ 4095 ∧
    SpriteCovers sprite 0 1 1 0 0 ∧ Framebuffer.get sprite.fb 0 0 = true := by
  refine ⟨by decide, ⟨0, 0, by decide, by decide, by decide, by decide, by decide⟩, by decide⟩

theorem witness_DrawingTwiceRestoresTheFramebuffer : (0 : RegIdx) ≠ VF ∧ (14 : RegIdx) ≠ VF ∧
    ((5 : Fin 16) = 0 ∨ (placedAt 0xD0E5 0x0FFB []).i.toNat + (5 : Fin 16).val - 1 ≤ 4095) := by decide

theorem witness_WaitForKeySuspends : (placed 0xF10A).fault = none := by decide

/-- A wait with no press, and one with key 7 captured. -/
theorem witness_PollDeliversTheCapturedKey : (waiting.mode = .awaitKey ∧ waiting.kp = none) ∧
    ((waiting.keyEvent 7 true).mode = .awaitKey ∧ (waiting.keyEvent 7 true).kp = some 7) := by decide

/-- The two clocks in turn, and no key: ticks at even moments, steps at odd ones. -/
def clocks : Schedule := fun n => if n % 2 = 0 then .tick else .step

theorem clocks_fair : Fair clocks :=
  ⟨fun m => ⟨2 * m + 1, by omega, if_neg (by omega)⟩, fun m => ⟨2 * m, by omega, if_pos (by omega)⟩⟩

theorem clocks_two (n : Nat) : clocks n = .tick ∨ clocks n = .step := by
  unfold clocks
  split
  · exact .inl rfl
  · exact .inr rfl

/-- A wait with key 7 captured and DT = 5. -/
def pressed : State := (waiting.keyEvent 7 true).setDt 5

/-- Its run under the two clocks: a tick, the poll that delivers key 7, a tick, the step that fetches 0x0000 at 0x0202
and faults, and the frozen machine for ever. -/
def pressedRun : Nat → State
  | 0 => pressed
  | 1 => pressed.tick
  | 2 => pressed.tick.poll
  | 3 => pressed.tick.poll.tick
  | _ + 4 => pressed.tick.poll.tick.raise .unknownOpcode (some 0x0000) none

theorem pressedRun_isRun : IsRun clocks pressedRun
  | 0 => rfl
  | 1 => rfl
  | 2 => rfl
  | 3 => rfl
  | n + 4 => by rcases clocks_two (n + 4) with h | h <;> rw [h] <;> rfl

/-- Under the two clocks no key is pressed at any time. -/
theorem clocks_noNewPress (key : Vector Bool 16) (moments : List Nat) : noNewPress key (moments.map clocks) = true := by
  induction moments with
  | nil => rfl
  | cons n rest ih => rcases clocks_two n with h | h <;> rw [List.map_cons, h] <;> exact ih

/-- A key never held, with releases before; and TK11 with a repeat: key 7 held at the start of the wait, pressed again
while down (no transition), released, and then pressed. -/
theorem witness_FirstPressEndsTheWait :
    (noNewPress (placed 0xF10A).key [.step, .tick, .key 3 false] = true ∧
      (latchAfter (placed 0xF10A).key [.step, .tick, .key 3 false])[(7 : KeyCode).val] = false) ∧
    (noNewPress (holding 7 (placed 0xF10A)).key [.key 7 true, .step, .key 7 false, .tick] = true ∧
      (latchAfter (holding 7 (placed 0xF10A)).key [.key 7 true, .step, .key 7 false, .tick])[(7 : KeyCode).val] = false) ∧
    (∀ e ∈ [Event.tick, .key 7 false, .key 9 true], e = .tick ∨ ∃ k pressed, e = .key k pressed) := by
  refine ⟨by decide, by decide, ?_⟩
  intro e he
  fin_cases he <;> simp

/-- The infinite clauses: a captured press under fair clocks, and fair clocks that never press a key. -/
theorem witness_FirstPressEndsTheWait_runs :
    (IsRun clocks pressedRun ∧ Recurs .step clocks ∧ (∀ n program, clocks n ≠ .reset program) ∧
      (pressedRun 0).mode = .awaitKey ∧ (pressedRun 0).kp = some 7) ∧
    (Fair clocks ∧ ∀ n, noNewPress (placed 0xF10A).key ((List.range n).map clocks) = true) := by
  refine ⟨⟨pressedRun_isRun, clocks_fair.1, ?_, rfl, rfl⟩, clocks_fair, fun n => clocks_noNewPress _ _⟩
  intro n program
  rcases clocks_two n with h | h <;> rw [h] <;> exact Event.noConfusion

/-- A press of an unpressed key in `before`, and a reset, are what noNewPress shuts out. -/
theorem test_noNewPress : noNewPress (placed 0xF10A).key [.key 7 true] = false ∧
    noNewPress (placed 0xF10A).key [.reset []] = false := by decide

/-- Outside FAULTED with DT = 0 and SR = 1, and in FAULTED. -/
theorem witness_TickDecrementsNonzeroTimers : ({ placed 0 with sr := 1 } : State).mode ≠ .faulted ∧
    waiting.mode ≠ .faulted ∧ stopped.mode = .faulted := by decide

theorem witness_TimersCountDownToZero : ((placed 0).setDt 0x0A).mode ≠ .faulted ∧
    (IsRun clocks pressedRun ∧ Recurs .tick clocks ∧ (pressedRun 0).dt ≠ 0 ∧ (pressedRun 0).mode ≠ .faulted) :=
  ⟨by decide, pressedRun_isRun, clocks_fair.2, by decide, by decide⟩

/-- A captured press (every condition of the capture met), and a faulted machine. -/
theorem witness_KeyEventWritesTheLatch : waiting.mode ≠ .faulted ∧
    (waiting.mode = .awaitKey ∧ true = true ∧ waiting.keyDown 7 = false ∧ waiting.kp = none) ∧
    stopped.mode = .faulted := by decide

/-- LD ST turns the sound on, as an execution and as a step; the tick from SR = 1 and a reset turn it off. -/
theorem witness_SoundChangesOnlyWhereStated :
    (exec (.ldStVx 4) (placedWith 0xF418 [(4, 0x1E)]) = .next (after (.ldStVx 4) (placedWith 0xF418 [(4, 0x1E)])) ∧
      (after (.ldStVx 4) (placedWith 0xF418 [(4, 0x1E)])).sound ≠ (placedWith 0xF418 [(4, 0x1E)]).sound) ∧
    ({ placed 0 with sr := 1 } : State).tick.sound ≠ ({ placed 0 with sr := 1 } : State).sound ∧
    applyEvent .step (placedWith 0xF418 [(4, 0x1E)]) = .next (after (.ldStVx 4) (placedWith 0xF418 [(4, 0x1E)])) ∧
    applyEvent .tick { placed 0 with sr := 1 } = .next ({ placed 0 with sr := 1 } : State).tick ∧
    (applyEvent (.reset []) { placed 0 with sr := 1 } = .next (State.boot Config.fontTable []) ∧
      (State.boot Config.fontTable []).sound ≠ ({ placed 0 with sr := 1 } : State).sound) := by
  refine ⟨⟨rfl, by decide⟩, by decide, rfl, rfl, rfl, by decide⟩

/-- A running state inside a subroutine meets the invariant. -/
theorem inv_inSubroutine : (inSubroutine 0x00EE).Inv where
  memory := by decide
  stackPointer := by decide
  returnAddresses := by decide
  programCounter := by decide
  waitingCounter := by decide
  noWait := by decide
  faultHeld := by decide
  faultShape := fun _ h => by cases h

/-- A waiting state meets the invariant. -/
theorem inv_waiting : waiting.Inv where
  memory := by decide
  stackPointer := by decide
  returnAddresses := by decide
  programCounter := by decide
  waitingCounter := by decide
  noWait := by decide
  faultHeld := by decide
  faultShape := fun _ h => by cases h

/-- A faulted state meets the invariant. -/
theorem inv_stopped : stopped.Inv where
  memory := by decide
  stackPointer := by decide
  returnAddresses := by decide
  programCounter := by decide
  waitingCounter := by decide
  noWait := by decide
  faultHeld := by decide
  faultShape := fun _ h => by cases h; exact ⟨rfl, by decide, by decide⟩

theorem witness_StatusIsTheResultOfTheLastStep :
    (waiting.Inv ∧ step waiting = .next waiting ∧ waiting.mode = .awaitKey) ∧
    ((inSubroutine 0x00EE).Inv ∧ step (inSubroutine 0x00EE) = .next (after .ret (inSubroutine 0x00EE)) ∧
      (inSubroutine 0x00EE).mode = .running ∧ (inSubroutine 0x00EE).fetch = .ok 0x00EE ∧ decode 0x00EE = .ok .ret) :=
  ⟨⟨inv_waiting, rfl, rfl⟩, ⟨inv_inSubroutine, rfl, rfl, by decide, by decide⟩⟩

/-- An instruction that changes each piece: LD B memory, DRW the framebuffer, CALL the stack, SP and PC, the timer moves,
LD I, LD Vx,kk a register, LD Vx,K MODE, WAITX and KP, RET on an empty stack MODE and FAULT, RND the draw counter. -/
theorem witness_EachPieceOfStateHasItsOwnWriters :
    (exec (.ldB 3) (placedAt 0 0x0300 [(3, 0x9C)]) = .next (after (.ldB 3) (placedAt 0 0x0300 [(3, 0x9C)])) ∧
      (after (.ldB 3) (placedAt 0 0x0300 [(3, 0x9C)])).mem ≠ (placedAt 0 0x0300 [(3, 0x9C)]).mem) ∧
    (exec (.drw 0 1 1) sprite = .next (after (.drw 0 1 1) sprite) ∧ (after (.drw 0 1 1) sprite).fb ≠ sprite.fb) ∧
    (exec (.call 0x300) (placed 0) = .next (after (.call 0x300) (placed 0)) ∧
      (after (.call 0x300) (placed 0)).stack ≠ (placed 0).stack ∧ (after (.call 0x300) (placed 0)).sp ≠ (placed 0).sp) ∧
    (exec (.ldDtVx 0) (placedWith 0 [(0, 1)]) = .next (after (.ldDtVx 0) (placedWith 0 [(0, 1)])) ∧
      (after (.ldDtVx 0) (placedWith 0 [(0, 1)])).dt ≠ (placedWith 0 [(0, 1)]).dt) ∧
    (exec (.ldStVx 0) (placedWith 0 [(0, 1)]) = .next (after (.ldStVx 0) (placedWith 0 [(0, 1)])) ∧
      (after (.ldStVx 0) (placedWith 0 [(0, 1)])).sr ≠ (placedWith 0 [(0, 1)]).sr) ∧
    (exec (.ldI 0x2F0) (placed 0) = .next (after (.ldI 0x2F0) (placed 0)) ∧
      (after (.ldI 0x2F0) (placed 0)).i ≠ (placed 0).i) ∧
    (exec (.ldImm 10 0x2C) (placed 0) = .next (after (.ldImm 10 0x2C) (placed 0)) ∧
      (after (.ldImm 10 0x2C) (placed 0)).reg 10 ≠ (placed 0).reg 10 ∧
      (after (.ldImm 10 0x2C) (placed 0)).pc ≠ (placed 0).pc) ∧
    (exec (.ldVxK 1) { placed 0 with kp := some 3 } = .next (after (.ldVxK 1) { placed 0 with kp := some 3 }) ∧
      (after (.ldVxK 1) { placed 0 with kp := some 3 }).mode ≠ (placed 0).mode ∧
      (after (.ldVxK 1) { placed 0 with kp := some 3 }).waitx ≠ (placed 0).waitx ∧
      (after (.ldVxK 1) { placed 0 with kp := some 3 }).kp ≠ some 3) ∧
    (exec .ret (placed 0) = .next (after .ret (placed 0)) ∧ (after .ret (placed 0)).mode ≠ (placed 0).mode ∧
      (after .ret (placed 0)).fault ≠ (placed 0).fault) ∧
    (exec (.rnd 0 1) (placed 0) = .next (after (.rnd 0 1) (placed 0)) ∧
      (after (.rnd 0 1) (placed 0)).draws ≠ (placed 0).draws) := by
  refine ⟨⟨rfl, by decide⟩, ⟨rfl, by decide⟩, ⟨rfl, by decide, by decide⟩, ⟨rfl, by decide⟩, ⟨rfl, by decide⟩,
    ⟨rfl, by decide⟩, ⟨rfl, by decide, by decide⟩, ⟨rfl, by decide, by decide, by decide⟩, ⟨rfl, by decide, by decide⟩,
    ⟨rfl, Nat.succ_ne_self 0⟩⟩

theorem witness_RegisterInstructionFrame : Instr.addReg 1 2 ≠ .ret ∧ (∀ nnn, Instr.addReg 1 2 ≠ .call nnn) ∧
    (∀ x, Instr.addReg 1 2 ≠ .ldB x) ∧ (∀ x, Instr.addReg 1 2 ≠ .storeRegs x) ∧
    (∀ x, Instr.addReg 1 2 ≠ .loadRegs x) ∧ (∀ x y n, Instr.addReg 1 2 ≠ .drw x y n) ∧
    exec (.addReg 1 2) (placed 0) = .next (after (.addReg 1 2) (placed 0)) :=
  ⟨by decide, fun _ => Instr.noConfusion, fun _ => Instr.noConfusion, fun _ => Instr.noConfusion,
    fun _ => Instr.noConfusion, fun _ _ _ => Instr.noConfusion, rfl⟩

/-- LD [I], V3 with and without a fault. -/
theorem witness_StackAndMemoryInstructionFrame :
    (Memory.wf storer.mem ∧ storer.mode ≠ .faulted ∧ exec (.storeRegs 3) storer = .next (after (.storeRegs 3) storer) ∧
      (after (.storeRegs 3) storer).mode ≠ .faulted) ∧
    (Memory.wf (storer.setI 0x0FFD).mem ∧ (storer.setI 0x0FFD).mode ≠ .faulted ∧
      exec (.storeRegs 3) (storer.setI 0x0FFD) = .next (after (.storeRegs 3) (storer.setI 0x0FFD)) ∧
      (after (.storeRegs 3) (storer.setI 0x0FFD)).mode = .faulted) :=
  ⟨⟨by decide, by decide, rfl, by decide⟩, ⟨by decide, by decide, rfl, by decide⟩⟩

/-- The bounds of each range of addresses: 79, 80, 0x1FF, 0x200 and 4095. -/
theorem witness_ResetLoadsFontAndProgram : (79 < 80) ∧ (80 ≤ 80 ∧ 80 < 0x200) ∧ (80 ≤ 0x1FF ∧ 0x1FF < 0x200) ∧
    (0x200 ≤ 0x200 ∧ 0x200 < 4096) ∧ (0x200 ≤ 4095 ∧ 4095 < 4096) := by decide

/-- A running, a waiting and a faulted state, each with its step; every event applies to each. -/
theorem witness_EveryStepKeepsTheInvariant :
    ((inSubroutine 0x00EE).Inv ∧ step (inSubroutine 0x00EE) = .next (after .ret (inSubroutine 0x00EE))) ∧
    (waiting.Inv ∧ step waiting = .next waiting) ∧ (stopped.Inv ∧ step stopped = .next stopped) :=
  ⟨⟨inv_inSubroutine, rfl⟩, ⟨inv_waiting, rfl⟩, ⟨inv_stopped, rfl⟩⟩

theorem witness_EveryStepAnswersANextState : (inSubroutine 0x00EE).Inv ∧ waiting.Inv ∧ stopped.Inv :=
  ⟨inv_inSubroutine, inv_waiting, inv_stopped⟩

end Sys2Proof.Tests
end

section
/-! PROOFS. The invariant of the machine (State.Inv) along every run: what each update of the state asks to keep it,
that the state after reset meets it, that every instruction, every step and every event answers a state that meets it,
and from these the runs of 00_scope R10 and 70_reset_and_hazards R198. -/

namespace Sys2Proof.Machine

/-! ### The invariant under the state's updates -/

section Updates

variable {s : State}

/-! The pieces of state the invariant does not speak of. -/

theorem State.Inv.setReg (hs : s.Inv) (x : RegIdx) (b : Byte) : (s.setReg x b).Inv := { hs with }

theorem State.Inv.setRegs (hs : s.Inv) (v : Vector Byte 16) : (s.setRegs v).Inv := { hs with }

theorem State.Inv.setI (hs : s.Inv) (w : Word) : (s.setI w).Inv := { hs with }

theorem State.Inv.setDt (hs : s.Inv) (b : Byte) : (s.setDt b).Inv := { hs with }

theorem State.Inv.setSr (hs : s.Inv) (b : Byte) : (s.setSr b).Inv := { hs with }

theorem State.Inv.setFb (hs : s.Inv) (fb : Framebuffer) : (s.setFb fb).Inv := { hs with }

theorem State.Inv.setDraws (hs : s.Inv) (n : Nat) : { s with draws := n }.Inv := { hs with }

/-! Memory, PC and the stack. -/

theorem State.Inv.setMem (hs : s.Inv) {m : Memory} (hm : Memory.wf m) : (s.setMem m).Inv :=
  { hs with memory := hm }

/-- Bytes stored inside memory keep it canonical (20_memory R51). -/
theorem State.Inv.storeBytes (hs : s.Inv) (a : Nat) (bytes : List Byte) (ha : a + bytes.length ≤ 4096) :
    (s.setMem (Memory.writeBytes s.mem a bytes)).Inv :=
  hs.setMem (Memory.writeBytes_wf bytes s.mem a ha hs.memory)

/-- Outside FAULTED no record is held (10_state R37). -/
theorem State.Inv.fault_eq_none (hs : s.Inv) (hm : s.mode ≠ .faulted) : s.fault = none :=
  Option.not_isSome_iff_eq_none.mp fun h => hm (hs.faultHeld.mpr h)

/-- A write of PC in RUNNING, where no record ties PC down and no wait needs a word at it. -/
theorem State.Inv.jump (hs : s.Inv) (hm : s.mode = .running) {target : Word} (ht : target.toNat ≤ 0x10FE) :
    (s.jump target).Inv :=
  { hs with
    programCounter := ht
    waitingCounter := by simp [hm]
    faultShape := by simp [hs.fault_eq_none (by simp [hm])] }

/-- PC + 2 stays in range where a fetch succeeded (10_state R28). -/
theorem State.Inv.advance (hs : s.Inv) (hm : s.mode = .running) (hpc : s.pc.toNat ≤ 4094) : s.advance.Inv :=
  hs.jump hm (by rw [BitVec.toNat_add]; simp; omega)

theorem State.Inv.skipIf (hs : s.Inv) (hm : s.mode = .running) (hpc : s.pc.toNat ≤ 4094) (condition : Bool) :
    (s.skipIf condition).Inv :=
  hs.jump hm (by rw [BitVec.toNat_add]; cases condition <;> simp <;> omega)

theorem State.Inv.finish (hs : s.Inv) (hm : s.mode = .running) (hpc : s.pc.toNat ≤ 4094) (x : RegIdx)
    (result : Byte) : (s.finish x result).Inv :=
  (hs.setReg x result).advance hm hpc

theorem State.Inv.finishWithFlag (hs : s.Inv) (hm : s.mode = .running) (hpc : s.pc.toNat ≤ 4094) (x : RegIdx)
    (result : Byte) (flag : Bool) : (s.finishWithFlag x result flag).Inv :=
  ((hs.setReg x result).setReg VF (flagByte flag)).advance hm hpc

/-- A push of an address in range: the slot it writes is the only new live one (10_state R29). -/
theorem State.Inv.push (hs : s.Inv) (h : s.sp.toNat < 16) {w : Word} (hw : w.toNat ≤ 4096) : (s.push h w).Inv := by
  have hsp : (s.sp + 1).toNat = s.sp.toNat + 1 := by rw [BitVec.toNat_add]; simp; omega
  refine { hs with stackPointer := ?_, returnAddresses := ?_ }
  · simp only [State.push_sp, hsp]; omega
  · intro k hk
    simp only [State.push_sp, hsp] at hk
    simp only [State.push_stack, Vector.getElem_set]
    split
    · exact hw
    · exact hs.returnAddresses k (by omega)

/-- A pop in RUNNING: PC becomes a live return address (10_state R28, R29). -/
theorem State.Inv.pop (hs : s.Inv) (hm : s.mode = .running) (h0 : s.sp ≠ 0) (h : s.sp.toNat - 1 < 16) :
    (s.pop h).Inv := by
  have hpos : 0 < s.sp.toNat := Nat.pos_of_ne_zero fun hz => h0 (BitVec.eq_of_toNat_eq hz)
  have hsp : (s.sp - 1).toNat = s.sp.toNat - 1 := by
    rw [BitVec.toNat_sub_of_le (by rw [BitVec.le_def]; exact hpos)]; simp
  have hret : (s.stack[s.sp.toNat - 1]'h).toNat ≤ 4096 := hs.returnAddresses ⟨_, h⟩ (Nat.sub_one_lt_of_lt hpos)
  have hjump := hs.jump hm (target := s.stack[s.sp.toNat - 1]'h) (by omega)
  refine { hjump with stackPointer := ?_, returnAddresses := ?_ }
  · have := hs.stackPointer
    simp only [State.pop_sp, hsp]; omega
  · intro k hk
    simp only [State.pop_sp, hsp] at hk
    exact hs.returnAddresses k (by omega)

/-! Waiting and faults. -/

/-- A wait starts where the fetch of its instruction succeeded (44_timers_keys R145). -/
theorem State.Inv.startWait (hs : s.Inv) (hm : s.mode = .running) (hpc : s.pc.toNat ≤ 4094) (x : RegIdx) :
    (s.startWait x).Inv :=
  { hs with
    waitingCounter := fun _ => hpc
    noWait := by simp
    faultHeld := by simp [hs.fault_eq_none (by simp [hm])] }

/-- The end of a wait, with PC moved on in range (44_timers_keys R146). -/
theorem State.Inv.endWait (hs : s.Inv) (hm : s.mode ≠ .faulted) : s.endWait.Inv :=
  { hs with
    waitingCounter := by simp
    noWait := by simp
    faultHeld := by simp [hs.fault_eq_none hm] }

/-- Taking a fault in RUNNING with a record of the shape of 60_exceptions R155. -/
theorem State.Inv.raise (hs : s.Inv) (hm : s.mode = .running) {kind : FaultKind} {opcode addr : Option Word}
    (haddr : addr.isSome ↔ kind = .memOutOfBounds) (hop : opcode = none → kind = .memOutOfBounds) :
    (s.raise kind opcode addr).Inv :=
  { hs with
    waitingCounter := by simp
    noWait := fun _ => hs.noWait (by simp [hm])
    faultHeld := by simp
    faultShape := by
      rintro record ⟨⟩
      exact ⟨rfl, haddr, hop⟩ }

/-- An access at I answers a state that meets the invariant when its completion in range does. -/
theorem State.Inv.accessAtI (hs : s.Inv) (hm : s.mode = .running) (ins : Instr) (count : Nat) (done : State)
    (hdone : count = 0 ∨ s.i.toNat + count ≤ 4096 → done.Inv) :
    ∃ t, s.accessAtI ins count done = .next t ∧ t.Inv := by
  obtain ⟨hrange, hnext⟩ | ⟨addr, -, hfault⟩ := s.accessAtI_cases ins count done
  · exact ⟨done, hnext, hdone hrange⟩
  · exact ⟨_, hfault, hs.raise hm (by simp) (by simp)⟩

end Updates

/-! ### Reset -/

/-- Memory after reset is canonical: the font ends at 80 and the program is cut at the end of memory
(70_reset_and_hazards R191). -/
theorem bootMemory_wf (font : Vector Byte 80) (program : List Byte) : Memory.wf (bootMemory font program) := by
  have hfont : Memory.wf (Memory.writeBytes [] 0 font.toList) := Memory.writeBytes_wf _ _ _ (by simp) (by decide)
  exact Memory.writeBytes_wf _ _ _ (by simp only [List.length_take]; omega) hfont

/-- The state after reset with the empty program meets the invariant. -/
theorem State.reset_inv : State.reset.Inv where
  memory := by decide
  stackPointer := by decide
  returnAddresses := by decide
  programCounter := by decide
  waitingCounter := by decide
  noWait := by decide
  faultHeld := by decide
  faultShape := fun _ h => by cases h

/-- The state after reset meets the invariant, with any font and program (70_reset_and_hazards R190). -/
theorem State.boot_inv (font : Vector Byte 80) (program : List Byte) : (State.boot font program).Inv :=
  State.reset_inv.setMem (bootMemory_wf font program)

/-! ### Every instruction -/

section Instructions

variable {s : State}

/-- The 12-bit target of a jump or a call (40_control_flow R92). -/
theorem zextAddr_toNat_le (nnn : Addr) : (zextAddr nnn).toNat ≤ 0xFFF := by
  simp only [zextAddr, BitVec.toNat_setWidth]
  omega

/-- The target of JP V0, nnn: at most 0x0FFF + 0xFF (40_control_flow R98, decision D29). -/
theorem jpV0_target_le (nnn : Addr) (b : Byte) : (zextAddr nnn + zextByte b).toNat ≤ 0x10FE := by
  simp only [zextAddr, zextByte, BitVec.toNat_add, BitVec.toNat_setWidth]
  omega

/-- RET underflows at SP = 0 and pops otherwise; SP above 16 does not occur (40_control_flow R91). -/
theorem execRet_inv (hs : s.Inv) (hm : s.mode = .running) : ∃ t, execRet s = .next t ∧ t.Inv := by
  have hsp := hs.stackPointer
  unfold execRet
  by_cases h0 : s.sp = 0
  · exact ⟨_, if_pos h0, hs.raise hm (by simp) (by simp)⟩
  · have h : s.sp.toNat - 1 < 16 := by omega
    exact ⟨s.pop h, by rw [if_neg h0, dif_pos h], hs.pop hm h0 h⟩

/-- CALL overflows at SP = 16 and pushes PC + 2 otherwise; SP above 16 does not occur (40_control_flow R93). -/
theorem execCall_inv (hs : s.Inv) (hm : s.mode = .running) (hpc : s.pc.toNat ≤ 4094) (nnn : Addr) :
    ∃ t, execCall nnn s = .next t ∧ t.Inv := by
  have hsp := hs.stackPointer
  unfold execCall
  by_cases h16 : s.sp = 16
  · exact ⟨_, if_pos h16, hs.raise hm (by simp) (by simp)⟩
  · have h : s.sp.toNat < 16 := Nat.lt_of_le_of_ne hsp fun he => h16 (BitVec.eq_of_toNat_eq he)
    have hreturn : (s.pc + 2).toNat ≤ 4096 := by rw [BitVec.toNat_add]; simp; omega
    have htarget := zextAddr_toNat_le nnn
    exact ⟨_, by rw [if_neg h16, dif_pos h], (hs.push h hreturn).jump hm (by omega)⟩

/-- LD B stores three digits inside memory or faults (42_index_memory R124). -/
theorem execLdB_inv (hs : s.Inv) (hm : s.mode = .running) (hpc : s.pc.toNat ≤ 4094) (x : RegIdx) :
    ∃ t, execLdB x s = .next t ∧ t.Inv :=
  hs.accessAtI hm _ _ _ fun hrange =>
    (hs.storeBytes _ _ (by simp only [decimalDigits, List.length_cons, List.length_nil]; omega)).advance hm hpc

/-- LD [I], Vx stores x + 1 registers inside memory or faults (42_index_memory R125). -/
theorem execStoreRegs_inv (hs : s.Inv) (hm : s.mode = .running) (hpc : s.pc.toNat ≤ 4094) (x : RegIdx) :
    ∃ t, execStoreRegs x s = .next t ∧ t.Inv :=
  hs.accessAtI hm _ _ _ fun hrange =>
    (hs.storeBytes _ _ (by simp only [State.regsUpTo, List.length_take]; omega)).advance hm hpc

/-- Every instruction executed where its fetch succeeded answers a state that meets the invariant. -/
theorem exec_completes_inv (hs : s.Inv) (hm : s.mode = .running) (hpc : s.pc.toNat ≤ 4094) (ins : Instr) :
    Completes ins s State.Inv := by
  cases ins with
  | cls => exact ⟨_, rfl, (hs.setFb _).advance hm hpc⟩
  | ret => exact execRet_inv hs hm
  | jp nnn => exact ⟨_, rfl, hs.jump hm ((zextAddr_toNat_le nnn).trans (by decide))⟩
  | call nnn => exact execCall_inv hs hm hpc nnn
  | seImm x kk => exact ⟨_, rfl, hs.skipIf hm hpc _⟩
  | sneImm x kk => exact ⟨_, rfl, hs.skipIf hm hpc _⟩
  | seReg x y => exact ⟨_, rfl, hs.skipIf hm hpc _⟩
  | ldImm x kk => exact ⟨_, rfl, hs.finish hm hpc x _⟩
  | addImm x kk => exact ⟨_, rfl, hs.finish hm hpc x _⟩
  | ldReg x y => exact ⟨_, rfl, hs.finish hm hpc x _⟩
  | orReg x y => exact ⟨_, rfl, hs.finish hm hpc x _⟩
  | andReg x y => exact ⟨_, rfl, hs.finish hm hpc x _⟩
  | xorReg x y => exact ⟨_, rfl, hs.finish hm hpc x _⟩
  | addReg x y => exact ⟨_, rfl, hs.finishWithFlag hm hpc x _ _⟩
  | sub x y => exact ⟨_, rfl, hs.finishWithFlag hm hpc x _ _⟩
  | shr x y => exact ⟨_, rfl, hs.finishWithFlag hm hpc x _ _⟩
  | subn x y => exact ⟨_, rfl, hs.finishWithFlag hm hpc x _ _⟩
  | shl x y => exact ⟨_, rfl, hs.finishWithFlag hm hpc x _ _⟩
  | sneReg x y => exact ⟨_, rfl, hs.skipIf hm hpc _⟩
  | ldI nnn => exact ⟨_, rfl, (hs.setI _).advance hm hpc⟩
  | jpV0 nnn => exact ⟨_, rfl, hs.jump hm (jpV0_target_le nnn _)⟩
  | rnd x kk => exact ⟨_, rfl, (hs.setDraws (s.draws + 1)).finish hm hpc x _⟩
  | drw x y n => exact hs.accessAtI hm _ _ _ fun _ => ((hs.setFb _).setReg VF _).advance hm hpc
  | skp x => exact ⟨_, rfl, hs.skipIf hm hpc _⟩
  | sknp x => exact ⟨_, rfl, hs.skipIf hm hpc _⟩
  | ldVxDt x => exact ⟨_, rfl, hs.finish hm hpc x _⟩
  | ldVxK x => exact ⟨_, rfl, hs.startWait hm hpc x⟩
  | ldDtVx x => exact ⟨_, rfl, (hs.setDt _).advance hm hpc⟩
  | ldStVx x => exact ⟨_, rfl, (hs.setSr _).advance hm hpc⟩
  | addI x => exact ⟨_, rfl, (hs.setI _).advance hm hpc⟩
  | ldF x => exact ⟨_, rfl, (hs.setI _).advance hm hpc⟩
  | ldB x => exact execLdB_inv hs hm hpc x
  | storeRegs x => exact execStoreRegs_inv hs hm hpc x
  | loadRegs x => exact hs.accessAtI hm _ _ _ fun _ => (hs.setRegs _).advance hm hpc

end Instructions

/-! ### Every event -/

section Events

variable {s : State}

/-- The poll of a waiting engine keeps the invariant: PC can move on, for a word was fetched at it (44_timers_keys
R146). -/
theorem State.Inv.poll (hs : s.Inv) (hm : s.mode = .awaitKey) : s.poll.Inv := by
  obtain ⟨-, hpoll⟩ | ⟨k, -, hpoll⟩ := s.poll_cases
  · rw [hpoll]; exact hs
  · have hpc := hs.waitingCounter hm
    have hended : (s.setReg s.waitx (keyByte k)).endWait.Inv :=
      (hs.setReg s.waitx (keyByte k)).endWait (by simp [hm])
    rw [hpoll]
    exact hended.advance rfl hpc

/-- A step answers a state that meets the invariant, in each MODE and after each answer of the fetch and the decoder
(30_encoding R74). -/
theorem step_inv (hs : s.Inv) : ∃ t, step s = .next t ∧ t.Inv := by
  cases hm : s.mode with
  | faulted => exact ⟨s, by simp [step, hm], hs⟩
  | awaitKey => exact ⟨s.poll, by simp [step, hm], hs.poll hm⟩
  | running =>
    obtain ⟨hpc, hfetch⟩ | ⟨-, addr, -, hfetch⟩ := s.fetch_cases
    · rw [step_running s _ hm hfetch]
      split
      · exact ⟨_, rfl, hs.raise hm (by simp) (by simp)⟩
      · exact exec_completes_inv hs hm (by omega) _
    · exact ⟨s.raise .memOutOfBounds none (some addr), by simp only [step, hm, hfetch],
        hs.raise hm (by simp) (by simp)⟩

/-- The tick moves only the timers (60_exceptions R166). -/
theorem State.Inv.tick (hs : s.Inv) : s.tick.Inv := by
  obtain ⟨-, htick⟩ | ⟨-, htick⟩ := s.tick_cases
  · rw [htick]; exact hs
  · rw [htick]; exact { hs with }

/-- A key event captures a press only during a wait (60_exceptions R170, R171). -/
theorem State.Inv.keyEvent (hs : s.Inv) (code : KeyCode) (pressed : Bool) : (s.keyEvent code pressed).Inv := by
  obtain ⟨-, hkey⟩ | ⟨-, hkey⟩ := s.keyEvent_cases code pressed
  · rw [hkey]; exact hs
  · have hcapture (hm : s.mode ≠ .awaitKey) : s.capturedBy code pressed = s.kp := if_neg fun h => hm h.1
    rw [hkey]
    exact { hs with noWait := fun hm => ⟨(hs.noWait hm).1, (hcapture hm).trans (hs.noWait hm).2⟩ }

/-- Every event answers a state that meets the invariant, from every state that meets it. -/
theorem applyEvent_inv (e : Event) (hs : s.Inv) : ∃ t, applyEvent e s = .next t ∧ t.Inv := by
  cases e with
  | step => exact step_inv hs
  | tick => exact ⟨_, rfl, hs.tick⟩
  | key code pressed => exact ⟨_, rfl, hs.keyEvent code pressed⟩
  | reset program => exact ⟨_, rfl, (State.boot_inv Config.fontTable program).setDraws s.draws⟩

end Events

/-! ### Every run -/

/-- A finite run from a state that meets the invariant answers a state that meets it. -/
theorem runEvents_inv (events : List Event) {s : State} (hs : s.Inv) :
    ∃ t, runEvents events s = .next t ∧ t.Inv := by
  induction events generalizing s with
  | nil => exact ⟨s, rfl, hs⟩
  | cons e es ih =>
    obtain ⟨u, hu, hinv⟩ := applyEvent_inv e hs
    simpa only [runEvents, hu] using ih hinv

/-- Every schedule has an infinite run from a state that meets the invariant, and each state of it does. -/
theorem exists_run_inv (schedule : Schedule) {s : State} (hs : s.Inv) :
    ∃ trace, trace 0 = s ∧ IsRun schedule trace ∧ ∀ n, (trace n).Inv :=
  exists_run (fun _ => State.Inv) schedule s hs fun n _ ht => applyEvent_inv (schedule n) ht

/-- Settles O60: the state after reset meets the invariant and every event carries it on, so it holds along every
finite sequence of events and every infinite schedule. -/
theorem everyRunMeetsTheInvariant : Obligations.EveryRunMeetsTheInvariant := fun font program =>
  ⟨fun events => runEvents_inv events (State.boot_inv font program),
    fun schedule => exists_run_inv schedule (State.boot_inv font program)⟩

end Sys2Proof.Machine
end

section
/-! PROOFS. The state and its writers (10_state): the state after reset and the invariant from it, what each instruction
can do to the state (Effect), and from that the owners of each piece of state, the flag and the frame of the
register instructions. -/

namespace Sys2Proof.Machine

/-! ### Reset and the invariant -/

/-- Settles O55: every field but MEM is the one of State.reset, and its three vectors and the framebuffer hold one
value everywhere. -/
theorem resetLeavesTheStatedValues : Obligations.ResetLeavesTheStatedValues := by
  intro font program
  have hreg : ∀ x, State.reset.reg x = 0 := by decide
  have hstack : ∀ k : Fin 16, State.reset.stack[k.val] = 0 := by decide
  have hkey : ∀ k, State.reset.keyDown k = false := by decide
  exact ⟨rfl, rfl, rfl, rfl, hreg, rfl, hstack, Framebuffer.get_clear, hkey, rfl, rfl, rfl, rfl, rfl, rfl⟩

/-- Settles O57: State.reset's fields are evaluated, and the memory a boot loads is canonical. -/
theorem invariantHoldsAtReset : Obligations.InvariantHoldsAtReset := ⟨State.reset_inv, State.boot_inv⟩

/-- Settles O58: the step answers exactly one state, the one `step_inv` names, and every event answers one that meets
the invariant. -/
theorem everyStepKeepsTheInvariant : Obligations.EveryStepKeepsTheInvariant := by
  refine ⟨fun s t hs hstep => ?_, fun e s hs => applyEvent_inv e hs⟩
  obtain ⟨u, hu, hinv⟩ := step_inv hs
  cases hu.symm.trans hstep
  exact hinv

/-! ### What an instruction can do -/

/-- RET: the underflow at SP = 0, the pop, or the model's stop (40_control_flow R91, log 3). -/
theorem execRet_cases (s : State) :
    (s.sp = 0 ∧ execRet s = .next (s.raise .stackUnderflow (some (encode .ret)) none)) ∨
    (s.sp ≠ 0 ∧ s.sp.toNat ≤ 16 ∧ ∃ h, execRet s = .next (s.pop h)) ∨
    (16 < s.sp.toNat ∧ execRet s = .fault .stackPointerOutOfRange) := by
  unfold execRet
  by_cases h0 : s.sp = 0
  · exact .inl ⟨h0, if_pos h0⟩
  · rw [if_neg h0]
    by_cases h : s.sp.toNat - 1 < 16
    · exact .inr (.inl ⟨h0, by omega, h, dif_pos h⟩)
    · exact .inr (.inr ⟨by omega, dif_neg h⟩)

/-- CALL: the overflow at SP = 16, the push, or the model's stop (40_control_flow R93, log 3). -/
theorem execCall_cases (s : State) (nnn : Addr) :
    (s.sp = 16 ∧ execCall nnn s = .next (s.raise .stackOverflow (some (encode (.call nnn))) none)) ∨
    (∃ h, execCall nnn s = .next ((s.push h (s.pc + 2)).jump (zextAddr nnn))) ∨
    (16 < s.sp.toNat ∧ execCall nnn s = .fault .stackPointerOutOfRange) := by
  unfold execCall
  by_cases h16 : s.sp = 16
  · exact .inl ⟨h16, if_pos h16⟩
  · rw [if_neg h16]
    have hne : s.sp.toNat ≠ 16 := fun he => h16 (BitVec.eq_of_toNat_eq he)
    by_cases h : s.sp.toNat < 16
    · exact .inr (.inl ⟨h, dif_pos h⟩)
    · exact .inr (.inr ⟨by omega, dif_neg h⟩)

/-- What an instruction may do to the state, by the update it makes; instructions that write the same pieces share a
case. The values written stay open where the pieces written say enough. -/
inductive Effect : Instr → State → State → Prop
  /-- A fault (60_exceptions R157). -/
  | fault {ins s} (kind : FaultKind) (addr : Option Word) (hfault : mayFault ins = true) :
      Effect ins s (s.raise kind (some (encode ins)) addr)
  /-- The jumps and skips (40_control_flow, 44_timers_keys R143, R144): PC alone. -/
  | jump {ins s} (target : Word) (hflag : writesFlag ins = false) (hwait : ∀ x, ins ≠ .ldVxK x) :
      Effect ins s (s.jump target)
  /-- A result without a flag (41_alu R100, 44_timers_keys R140). -/
  | register {ins s} (x : RegIdx) (result : Byte) (hflag : writesFlag ins = false) (hx : mayWrite ins s (.v x)) :
      Effect ins s (s.finish x result)
  /-- A result and then the flag (41_alu R100). -/
  | registerAndFlag {ins s} (x : RegIdx) (result : Byte) (flag : Bool) (hx : mayWrite ins s (.v x))
      (hvf : mayWrite ins s (.v VF)) : Effect ins s (s.finishWithFlag x result flag)
  /-- A result from a fresh random byte (41_alu R112, log 4). -/
  | random {s} (x : RegIdx) (kk result : Byte) : Effect (.rnd x kk) s (s.countDraw.finish x result)
  /-- CLS (43_display R131). -/
  | clear {s} : Effect .cls s (s.setFb Framebuffer.clear).advance
  /-- DRW: the framebuffer and then the collision flag (43_display R132). -/
  | draw {s} (x y : RegIdx) (n : Fin 16) (fb : Framebuffer) (collision : Bool) :
      Effect (.drw x y n) s ((s.setFb fb).setFlag collision).advance
  /-- The three writers of I (42_index_memory R121 to R123). -/
  | index {ins s} (w : Word) (hins : (∃ nnn, ins = .ldI nnn) ∨ ∃ x, ins = .addI x ∨ ins = .ldF x) :
      Effect ins s (s.setI w).advance
  /-- LD DT, Vx (44_timers_keys R141). -/
  | delayTimer {s} (x : RegIdx) : Effect (.ldDtVx x) s (s.setDt (s.reg x)).advance
  /-- LD ST, Vx (44_timers_keys R142). -/
  | soundTimer {s} (x : RegIdx) : Effect (.ldStVx x) s (s.setSr (s.reg x)).advance
  /-- The two stores, in range (42_index_memory R124, R125). -/
  | store {ins s} (m : Memory) (hins : ∃ x, ins = .ldB x ∨ ins = .storeRegs x) : Effect ins s (s.setMem m).advance
  /-- LD Vx, [I], in range (42_index_memory R126). -/
  | load {s} (x : RegIdx) : Effect (.loadRegs x) s (s.setRegs (s.regsLoadedUpTo x)).advance
  /-- LD Vx, K (44_timers_keys R145). -/
  | startWait {s} (x : RegIdx) : Effect (.ldVxK x) s (s.startWait x)
  /-- RET with a return address held (40_control_flow R91). -/
  | pop {s} (h : s.sp.toNat - 1 < 16) : Effect .ret s (s.pop h)
  /-- CALL with a free slot (40_control_flow R93). -/
  | push {s} (nnn : Addr) (h : s.sp.toNat < 16) :
      Effect (.call nnn) s ((s.push h (s.pc + 2)).jump (zextAddr nnn))

/-- An instruction that accesses a byte at I can take a fault (60_exceptions R154). -/
theorem mayFault_of_bytesAtI_pos {ins : Instr} (h : 0 < bytesAtI ins) : mayFault ins = true := by
  unfold mayFault
  split
  · rfl
  · rfl
  · exact decide_eq_true h

/-- An access of the instruction's bytes at I has the effect of its completion, or faults. -/
theorem Effect.accessAtI {ins : Instr} {s done : State} (hdone : Effect ins s done) :
    ∃ t, s.accessAtI ins (bytesAtI ins) done = .next t ∧ Effect ins s t := by
  obtain ⟨-, hnext⟩ | ⟨addr, hrange, hfault⟩ := s.accessAtI_cases ins (bytesAtI ins) done
  · exact ⟨done, hnext, hdone⟩
  · obtain ⟨hpos, -, -⟩ := (outOfBounds_eq_some s.i addr (bytesAtI ins)).mp hrange
    exact ⟨_, hfault, .fault _ _ (mayFault_of_bytesAtI_pos hpos)⟩

/-- Every instruction answers a state with its effect, except that RET and CALL stop where SP > 16 (log 3). -/
theorem exec_cases (ins : Instr) (s : State) :
    (∃ t, exec ins s = .next t ∧ Effect ins s t) ∨
    (16 < s.sp.toNat ∧ (ins = .ret ∨ ∃ nnn, ins = .call nnn) ∧ exec ins s = .fault .stackPointerOutOfRange) := by
  cases ins with
  | ret =>
    obtain ⟨-, h⟩ | ⟨-, -, hsp, h⟩ | ⟨hsp, h⟩ := execRet_cases s
    · exact .inl ⟨_, h, .fault _ _ rfl⟩
    · exact .inl ⟨_, h, .pop hsp⟩
    · exact .inr ⟨hsp, .inl rfl, h⟩
  | call nnn =>
    obtain ⟨-, h⟩ | ⟨hsp, h⟩ | ⟨hsp, h⟩ := execCall_cases s nnn
    · exact .inl ⟨_, h, .fault _ _ rfl⟩
    · exact .inl ⟨_, h, .push nnn hsp⟩
    · exact .inr ⟨hsp, .inr ⟨nnn, rfl⟩, h⟩
  | cls => exact .inl ⟨_, rfl, .clear⟩
  | jp | jpV0 | seImm | sneImm | seReg | sneReg | skp | sknp => exact .inl ⟨_, rfl, .jump _ rfl (by simp)⟩
  | ldImm x _ | addImm x _ | ldReg x _ | orReg x _ | andReg x _ | xorReg x _ | ldVxDt x =>
    exact .inl ⟨_, rfl, .register x _ rfl rfl⟩
  | addReg x _ | sub x _ | shr x _ | subn x _ | shl x _ =>
    exact .inl ⟨_, rfl, .registerAndFlag x _ _ (.inl rfl) (.inr rfl)⟩
  | rnd x kk => exact .inl ⟨_, rfl, .random x kk _⟩
  | ldI nnn => exact .inl ⟨_, rfl, .index _ (.inl ⟨nnn, rfl⟩)⟩
  | addI x => exact .inl ⟨_, rfl, .index _ (.inr ⟨x, .inl rfl⟩)⟩
  | ldF x => exact .inl ⟨_, rfl, .index _ (.inr ⟨x, .inr rfl⟩)⟩
  | ldDtVx x => exact .inl ⟨_, rfl, .delayTimer x⟩
  | ldStVx x => exact .inl ⟨_, rfl, .soundTimer x⟩
  | ldVxK x => exact .inl ⟨_, rfl, .startWait x⟩
  | drw x y n => exact .inl (Effect.accessAtI (.draw x y n _ _))
  | ldB x => exact .inl (Effect.accessAtI (.store _ ⟨x, .inl rfl⟩))
  | storeRegs x => exact .inl (Effect.accessAtI (.store _ ⟨x, .inr rfl⟩))
  | loadRegs x => exact .inl (Effect.accessAtI (.load x))

/-- Whatever state an instruction answers, it has its effect on it. -/
theorem exec_effect {ins : Instr} {s t : State} (h : exec ins s = .next t) : Effect ins s t := by
  obtain ⟨u, hu, heffect⟩ | ⟨-, -, hstop⟩ := exec_cases ins s
  · cases hu.symm.trans h
    exact heffect
  · rw [h] at hstop
    cases hstop

/-! ### Stops, writers, the flag and the register frame -/

/-- Settles O17: RET and CALL case by case, and `exec_cases` for every instruction. -/
theorem onlyStackPointerAboveSixteenStops : Obligations.OnlyStackPointerAboveSixteenStops := by
  refine ⟨fun s hsp => ⟨?_, fun nnn => ?_⟩, fun s ins hsp => ?_, fun s ins hret hcall => ?_⟩
  · obtain ⟨h, -⟩ | ⟨-, h, -⟩ | ⟨-, h⟩ := execRet_cases s
    · simp [h] at hsp
    · omega
    · exact h
  · obtain ⟨h, -⟩ | ⟨h, -⟩ | ⟨-, h⟩ := execCall_cases s nnn
    · simp [h] at hsp
    · omega
    · exact h
  · obtain ⟨t, ht, -⟩ | ⟨hstop, -⟩ := exec_cases ins s
    · exact ⟨t, ht⟩
    · omega
  · obtain ⟨t, ht, -⟩ | ⟨-, rfl | ⟨nnn, rfl⟩, -⟩ := exec_cases ins s
    · exact ⟨t, ht⟩
    · exact absurd rfl hret
    · exact absurd rfl (hcall nnn)

/-- A register that a write of `x` changed is `x`, and one the instruction may write. -/
theorem mayWrite_of_setReg_ne {ins : Instr} {s u : State} {x r : RegIdx} {b : Byte} (hx : mayWrite ins s (.v x))
    (h : (u.setReg x b).reg r ≠ u.reg r) : mayWrite ins s (.v r) := by
  by_cases hr : r = x
  · rw [hr]; exact hx
  · simp [hr] at h

/-- A general register changes only where the instruction's rule writes it (10_state R23). -/
theorem Effect.mayWrite_of_reg_ne {ins : Instr} {s t : State} (h : Effect ins s t) {r : RegIdx}
    (hr : t.reg r ≠ s.reg r) : mayWrite ins s (.v r) := by
  cases h with
  | register x result hflag hx => exact mayWrite_of_setReg_ne hx hr
  | registerAndFlag x result flag hx hvf =>
    by_cases h1 : (s.setReg x result).reg r = s.reg r
    · exact mayWrite_of_setReg_ne (u := s.setReg x result) hvf (by rw [h1]; exact hr)
    · exact mayWrite_of_setReg_ne hx h1
  | random x kk result => exact mayWrite_of_setReg_ne (u := s.countDraw) (.inl rfl) hr
  | draw x y n fb collision => exact mayWrite_of_setReg_ne (u := s.setFb fb) (.inl rfl) hr
  | load x =>
    by_cases hrx : r ≤ x
    · exact ⟨r, hrx, rfl⟩
    · simp [State.regsLoadedUpTo, hrx] at hr
  | _ => simp at hr

/-- LD Vx, K writes no general register at the step that starts the wait (44_timers_keys R145). -/
theorem ne_ldVxK_of_mayWrite_v {ins : Instr} {s : State} {r : RegIdx} (h : mayWrite ins s (.v r)) (x : RegIdx) :
    ins ≠ .ldVxK x := by
  rintro rfl
  simp [mayWrite] at h

/-- Settles O52: each kind of effect writes its own pieces, and the registers are those of `mayWrite`. -/
theorem eachPieceOfStateHasItsOwnWriters : Obligations.EachPieceOfStateHasItsOwnWriters := by
  intro ins s t h
  have heffect := exec_effect h
  have hregs : ∀ r, t.reg r ≠ s.reg r → mayWrite ins s (.v r) := fun r => heffect.mayWrite_of_reg_ne
  cases heffect with
  | fault kind addr hfault => simp [hfault]
  | jump target hflag hwait => simp [hwait]
  | register x result hflag hx => simpa [ne_ldVxK_of_mayWrite_v hx] using hregs
  | registerAndFlag x result flag hx hvf => simpa [ne_ldVxK_of_mayWrite_v hx] using hregs
  | random x kk result => simpa using hregs
  | clear => simp
  | draw x y n fb collision => simpa using hregs
  | index w hins => obtain ⟨nnn, rfl⟩ | ⟨x, rfl | rfl⟩ := hins <;> simp
  | delayTimer x => simp
  | soundTimer x => simp
  | store m hins => obtain ⟨x, rfl | rfl⟩ := hins <;> simp
  | load x => simpa using hregs
  | startWait x => simp
  | pop h => simp
  | push nnn h => simp

/-- The six flag instructions leave VF at 0x00 or 0x01 (10_state R23, decision D30). -/
theorem Effect.flag_eq_zero_or_one {ins : Instr} {s t : State} (h : Effect ins s t) (hm : t.mode ≠ .faulted)
    (hflag : writesFlag ins = true) : t.reg VF = 0 ∨ t.reg VF = 1 := by
  cases h with
  | fault kind addr hfault => exact absurd rfl hm
  | registerAndFlag x result flag hx hvf => simpa using (flagByte_eq_or flag).symm
  | draw x y n fb collision => simpa using (flagByte_eq_or collision).symm
  | jump target hnone hwait => simp [hnone] at hflag
  | register x result hnone hx => simp [hnone] at hflag
  | index w hins => obtain ⟨nnn, rfl⟩ | ⟨x, rfl | rfl⟩ := hins <;> cases hflag
  | store m hins => obtain ⟨x, rfl | rfl⟩ := hins <;> cases hflag
  | _ => cases hflag

/-- An instruction that may write VF, but not as a flag, names it as a destination; LD Vx, [I] loads up to it
(10_state R23). -/
theorem flag_destination {ins : Instr} {s : State} (hflag : writesFlag ins = false) (h : mayWrite ins s (.v VF)) :
    (∃ kk, ins = .ldImm VF kk) ∨ (∃ kk, ins = .addImm VF kk) ∨ (∃ y, ins = .ldReg VF y) ∨
    (∃ y, ins = .orReg VF y) ∨ (∃ y, ins = .andReg VF y) ∨ (∃ y, ins = .xorReg VF y) ∨
    (∃ kk, ins = .rnd VF kk) ∨ ins = .ldVxDt VF ∨ ins = .loadRegs VF := by
  cases ins with
  | ldImm x _ | addImm x _ | ldReg x _ | orReg x _ | andReg x _ | xorReg x _ | rnd x _ | ldVxDt x =>
    have hx : x = VF := by simpa [mayWrite, eq_comm] using h
    simp [hx]
  | loadRegs x =>
    obtain ⟨k, hk, hvf⟩ := h
    cases hvf
    simp [le_antisymm (Fin.le_last x) hk]
  | addReg | sub | shr | subn | shl | drw => cases hflag
  | _ => simp [mayWrite] at h

/-- Settles O33: the value of the flag by the effect, its other writers by the registers an instruction may write. -/
theorem onlySixInstructionsWriteTheFlag : Obligations.OnlySixInstructionsWriteTheFlag := fun _ins _s _t h hm =>
  ⟨(exec_effect h).flag_eq_zero_or_one hm, fun hflag hvf =>
    flag_destination hflag ((exec_effect h).mayWrite_of_reg_ne hvf)⟩

/-- The instructions that can take a fault (60_exceptions R150). -/
theorem eq_of_mayFault {ins : Instr} (h : mayFault ins = true) :
    ins = .ret ∨ (∃ nnn, ins = .call nnn) ∨ (∃ x, ins = .ldB x) ∨ (∃ x, ins = .storeRegs x) ∨
    (∃ x, ins = .loadRegs x) ∨ ∃ x y n, ins = .drw x y n := by
  cases ins with
  | ret | call | ldB | storeRegs | loadRegs | drw => simp
  | _ => cases h

/-- Settles O53: by O52 a piece that changed is one the instruction may write, for the writers of the stack, the SP and
memory, and the instructions that take a fault, are among the six left out. -/
theorem registerInstructionFrame : Obligations.RegisterInstructionFrame := by
  intro ins s t hret hcall hldB hstore hload hdrw h c hc
  have hkept : ¬ mayWrite ins s c := fun hw => hc (.inr hw)
  have hnofault : ¬ mayFault ins = true := fun hf => by
    obtain rfl | ⟨nnn, rfl⟩ | ⟨x, rfl⟩ | ⟨x, rfl⟩ | ⟨x, rfl⟩ | ⟨x, y, n, rfl⟩ := eq_of_mayFault hf
    · exact hret rfl
    · exact hcall nnn rfl
    · exact hldB x rfl
    · exact hstore x rfl
    · exact hload x rfl
    · exact hdrw x y n rfl
  obtain ⟨hmem, hfb, hstack, hsp, hdt, hsr, hi, hkey, hreg, -, hmode, hfault, hwait, hdraws⟩ :=
    eachPieceOfStateHasItsOwnWriters ins s t h
  by_contra hne
  cases c with
  | v r => exact hkept (hreg r hne)
  | i => obtain ⟨nnn, rfl⟩ | ⟨x, rfl | rfl⟩ := hi hne <;> exact hkept rfl
  | pc => exact hc (.inl rfl)
  | sp =>
    obtain rfl | ⟨nnn, rfl⟩ := hsp hne
    · exact hret rfl
    · exact hcall nnn rfl
  | stackSlot k =>
    obtain ⟨nnn, rfl⟩ := hstack fun heq => hne (by simp [Component.same, heq])
    exact hcall nnn rfl
  | dt => obtain ⟨x, rfl⟩ := hdt hne; exact hkept rfl
  | sr => obtain ⟨x, rfl⟩ := hsr hne; exact hkept rfl
  | memByte a =>
    obtain ⟨x, rfl | rfl⟩ := hmem fun heq => hne (by simp [Component.same, heq])
    · exact hldB x rfl
    · exact hstore x rfl
  | pixel r k =>
    obtain rfl | ⟨x, y, n, rfl⟩ := hfb fun heq => hne (by simp [Component.same, heq])
    · exact hkept ⟨r, k, rfl⟩
    · exact hdrw x y n rfl
  | keyFlag k => exact hne (by simp [Component.same, State.keyDown, hkey])
  | mode =>
    obtain ⟨-, x, rfl⟩ | ⟨-, hf⟩ := hmode hne
    · exact hkept (.inl rfl)
    · exact hnofault hf
  | waitx => obtain ⟨x, rfl⟩ := hwait (.inl hne); exact hkept (.inr (.inl rfl))
  | kp => obtain ⟨x, rfl⟩ := hwait (.inr hne); exact hkept (.inr (.inr rfl))
  | fault => exact hnofault (hfault hne).2
  | draws => obtain ⟨x, kk, rfl⟩ := hdraws hne; exact hkept (.inr rfl)

end Sys2Proof.Machine
end

section
/-! PROOFS. Memory (20_memory): the big-endian fetch and its bounds, what a store of registers leaves in memory for a
later fetch, and the memory a reset loads. -/

namespace Sys2Proof.Machine

/-! ### The fetch -/

/-- The byte at the lower address is the high byte of the opcode (20_memory R52). -/
theorem wordOfBytes_toNat (hi lo : Byte) : (wordOfBytes hi lo).toNat = 256 * hi.toNat + lo.toNat := by
  rw [wordOfBytes, BitVec.toNat_append, ← Nat.shiftLeft_add_eq_or_of_lt lo.isLt, Nat.shiftLeft_eq, Nat.mul_comm]

/-- The address a failed bounds check names is the one 60_exceptions R154 gives. -/
theorem outOfBounds_eq_faultingAddress {base : Word} {count : Nat} (hpos : 0 < count)
    (h : 4096 < base.toNat + count) : outOfBounds base count = some (faultingAddress base) :=
  if_pos ⟨hpos, h⟩

/-- The fetch fails from PC = 4095 on (20_memory R52). -/
theorem State.fetch_error (s : State) (h : 4095 ≤ s.pc.toNat) : s.fetch = .error (faultingAddress s.pc) := by
  rw [State.fetch, outOfBounds_eq_faultingAddress (by decide) (by omega)]

/-- Fault entry is the state the statements name (60_exceptions R157). -/
theorem State.raise_eq_faultedWith (s : State) (kind : FaultKind) (opcode addr : Option Word) :
    s.raise kind opcode addr = faultedWith s kind opcode addr := rfl

/-- In RUNNING a fetch that fails is the step's fault, with no opcode to record (60_exceptions R154, R156). -/
theorem step_of_fetch_error {s : State} {addr : Word} (hm : s.mode = .running) (hf : s.fetch = .error addr) :
    step s = .next (faultedWith s .memOutOfBounds none (some addr)) := by
  simp only [step, hm, hf, State.raise_eq_faultedWith]

/-- Settles O8: the fetch succeeds with the big-endian word up to PC = 4094 and fails above, where the faulting address
is 4096 for PC = 4095 and PC itself from 4096 on. -/
theorem fetchIsBigEndianAndBounded : Obligations.FetchIsBigEndianAndBounded := by
  refine fun s => ⟨fun hpc => ?_, fun hpc hm => ?_, fun hpc hm => ?_⟩
  · exact ⟨_, s.fetch_ok (by omega), wordOfBytes_toNat _ _⟩
  · have haddr : faultingAddress s.pc = 0x1000 := if_neg (by omega)
    exact step_of_fetch_error hm (by rw [s.fetch_error (by omega), haddr])
  · have haddr : faultingAddress s.pc = s.pc := if_pos hpc
    exact step_of_fetch_error hm (by rw [s.fetch_error (by omega), haddr])

/-! ### Bytes stored by LD [I], Vx -/

/-- An access at I that did not fault was in range and answered its completion (42_index_memory R120). -/
theorem State.accessAtI_completed {s t done : State} {ins : Instr} {count : Nat}
    (h : s.accessAtI ins count done = .next t) (hm : t.mode ≠ .faulted) :
    (count = 0 ∨ s.i.toNat + count ≤ 4096) ∧ t = done := by
  obtain ⟨hrange, hnext⟩ | ⟨addr, -, hfault⟩ := s.accessAtI_cases ins count done
  · cases hnext.symm.trans h
    exact ⟨hrange, rfl⟩
  · cases hfault.symm.trans h
    exact absurd rfl hm

@[simp] theorem State.length_regsUpTo (s : State) (x : RegIdx) : (s.regsUpTo x).length = x.val + 1 := by
  simp only [State.regsUpTo, List.length_take, Vector.length_toList]
  omega

/-- The k-th byte of V0 to Vx is V[k]. -/
@[simp] theorem State.getElem_regsUpTo (s : State) (x k : RegIdx) (h : k.val < (s.regsUpTo x).length) :
    (s.regsUpTo x)[k.val] = s.reg k := by
  simp [State.regsUpTo, State.reg]

/-- V[k] is what MEM[I + k] reads after V0 to Vx are stored at I, for k up to x (42_index_memory R125). -/
theorem State.read_stored_regs {s : State} {x k : RegIdx} (hwf : Memory.wf s.mem)
    (hrange : s.i.toNat + (x.val + 1) ≤ 4096) (hk : k.val ≤ x.val) :
    Memory.read (Memory.writeBytes s.mem s.i.toNat (s.regsUpTo x)) (s.i.toNat + k.val) = s.reg k := by
  have hin : s.i.toNat ≤ s.i.toNat + k.val ∧ s.i.toNat + k.val - s.i.toNat < (s.regsUpTo x).length := by
    rw [State.length_regsUpTo]
    omega
  rw [Memory.read_writeBytes _ _ _ _ (by rw [State.length_regsUpTo]; exact hrange) hwf, dif_pos hin]
  simp only [Nat.add_sub_cancel_left, State.getElem_regsUpTo]

/-- Settles O11: a LD [I], Vx that took no fault stored V[j] and V[j + 1] at I + j and I + j + 1, inside memory, and the
fetch reads the two bytes there. -/
theorem storedBytesAreFetched : Obligations.StoredBytesAreFetched := by
  intro s t x j hj hwf hexec _ hm hjx
  obtain ⟨hrange, rfl⟩ := State.accessAtI_completed (ins := .storeRegs x) hexec hm
  have hrange : s.i.toNat + (x.val + 1) ≤ 4096 := hrange.resolve_left (by omega)
  have hpc : (s.i + BitVec.ofNat 16 j.val).toNat = s.i.toNat + j.val := by
    rw [BitVec.toNat_add, BitVec.toNat_ofNat]
    omega
  have hhi := State.read_stored_regs (k := j) hwf hrange (by omega)
  have hlo := State.read_stored_regs (k := ⟨j.val + 1, hj⟩) hwf hrange hjx
  rw [State.fetch_ok _ (by simp only [State.jump_pc, hpc]; omega)]
  simp only [State.jump_pc, State.jump_mem, State.advance_eq, State.setMem_mem, hpc, hhi, Nat.add_assoc, hlo]

/-! ### The memory a reset loads -/

@[simp] theorem State.boot_mem (font : Vector Byte 80) (program : List Byte) :
    (State.boot font program).mem = bootMemory font program := rfl

/-- Memory with the font alone: the font's bytes, and RESET_FILL above them (20_memory R58). -/
theorem Memory.read_font (font : Vector Byte 80) (a : Nat) :
    Memory.read (Memory.writeBytes [] 0 font.toList) a = if h : a < 80 then font[a] else 0 := by
  rw [Memory.read_writeBytes _ _ _ _ (by simp) (by decide)]
  by_cases h : a < 80
  · simp [h]
  · simp [h, Memory.read, unlistedByte, Config.resetFill]

/-- A program cut to PROG_MAX bytes and copied to PROG_BASE: its bytes up to the end of memory, and the old bytes
elsewhere (70_reset_and_hazards R191). -/
theorem Memory.read_program {m : Memory} (hwf : Memory.wf m) (program : List Byte) (a : Nat) :
    Memory.read (Memory.writeBytes m 0x200 (program.take 3584)) a =
      if 0x200 ≤ a ∧ a < 4096 ∧ a - 0x200 < program.length then program.getD (a - 0x200) 0 else Memory.read m a := by
  have hlength : (program.take 3584).length = min 3584 program.length := List.length_take
  rw [Memory.read_writeBytes _ _ _ _ (by omega) hwf]
  by_cases h : 0x200 ≤ a ∧ a < 4096 ∧ a - 0x200 < program.length
  · rw [if_pos h, dif_pos (by omega), List.getElem_take, List.getD_eq_getElem]
  · rw [if_neg h, dif_neg (by omega)]

/-- Memory after reset: the program from PROG_BASE, the font and RESET_FILL elsewhere (20_memory R56,
70_reset_and_hazards R190). -/
theorem read_bootMemory (font : Vector Byte 80) (program : List Byte) (a : Nat) :
    Memory.read (bootMemory font program) a =
      if 0x200 ≤ a ∧ a < 4096 ∧ a - 0x200 < program.length then program.getD (a - 0x200) 0
      else if h : a < 80 then font[a] else 0 := by
  rw [bootMemory, Memory.read_program (Memory.writeBytes_wf _ _ _ (by simp) (by decide)), Memory.read_font]

/-- Settles O56: the program starts above the font and is cut at the end of memory, and past it stands what stood there
before the load, 0x00. -/
theorem resetLoadsFontAndProgram : Obligations.ResetLoadsFontAndProgram := by
  refine fun font program a => ⟨fun h => ?_, fun h80 h => ?_, fun h ha => ?_⟩
  · rw [State.boot_mem, read_bootMemory, if_neg (by omega), dif_pos h]
  · rw [State.boot_mem, read_bootMemory, if_neg (by omega), dif_neg (by omega)]
  · rw [State.boot_mem, read_bootMemory]
    by_cases hp : a - 0x200 < program.length
    · rw [if_pos ⟨h, ha, hp⟩]
    · rw [if_neg (by omega), dif_neg (by omega), List.getD_eq_default _ _ (by omega)]

end Sys2Proof.Machine
end

section
/-! PROOFS. Encoding and decoding (30_encoding): the word of an instruction decodes to it, the decoder answers either an
instruction whose word it read or the rejection of a word R76 lists, and the opcode map accepts the words R76 does not
list and has no two rows for one word. Last, what the step does with the decoded instruction. -/

namespace Sys2Proof

/-! ### Decoding a word of the encoder -/

/-- Settles O2, format by format: the fields the decoder reads of a word are the ones the encoder put there, and the
family with the secondary opcode names the constructor. -/
theorem decodeUndoesEncode : Obligations.DecodeUndoesEncode := by
  intro ins
  cases ins with
  | cls | ret => rfl
  | jp | call | ldI | jpV0 => simp [encode, decode]
  | seImm | sneImm | ldImm | addImm | rnd => simp [encode, decode]
  | seReg | sneReg => simp [encode, decode]
  | ldReg | orReg | andReg | xorReg | addReg | sub | shr | subn | shl => simp [encode, decode, decodeFamily8]
  | drw => simp [encode, decode, nField]
  | skp | sknp => simp [encode, decode, decodeFamilyE]
  | ldVxDt | ldVxK | ldDtVx | ldStVx | addI | ldF | ldB | storeRegs | loadRegs =>
    simp [encode, decode, decodeFamilyF]

/-! ### A word from its fields (30_encoding R71, R72) -/

theorem encodeA_fields (op : Word) : encodeA (familyField op) (nnnField op) = op :=
  (BitVec.extractLsb'_append_extractLsb'_eq_extractLsb' rfl).trans BitVec.extractLsb'_eq_self

theorem encodeI_fields (op : Word) : encodeI (familyField op) (xField op) (kkField op) = op := by
  have hlow : nibbleOf (xField op) ++ kkField op = nnnField op := by
    rw [xField, nibbleOf_nibbleIndex]
    exact BitVec.extractLsb'_append_extractLsb'_eq_extractLsb' rfl
  rw [encodeI, hlow]
  exact encodeA_fields op

theorem encodeR_fields (op : Word) :
    encodeR (familyField op) (xField op) (yField op) (lowNibbleField op) = op := by
  have hlow : nibbleOf (yField op) ++ lowNibbleField op = kkField op := by
    rw [yField, nibbleOf_nibbleIndex]
    exact BitVec.extractLsb'_append_extractLsb'_eq_extractLsb' rfl
  rw [encodeR, hlow]
  exact encodeI_fields op

section Fields

variable {op : Word} {f : BitVec 4}

/-! The same where the decoder has found the family, and where it has found the secondary opcode too. -/

theorem encodeA_eq (hf : (familyField op).toNat = f.toNat) : encodeA f (nnnField op) = op := by
  rw [← BitVec.eq_of_toNat_eq hf, encodeA_fields]

theorem encodeI_eq (hf : (familyField op).toNat = f.toNat) : encodeI f (xField op) (kkField op) = op := by
  rw [← BitVec.eq_of_toNat_eq hf, encodeI_fields]

theorem encodeI_eq_of_kk {kk : Byte} (hf : familyField op = f) (hk : (kkField op).toNat = kk.toNat) :
    encodeI f (xField op) kk = op := by
  rw [← hf, ← BitVec.eq_of_toNat_eq hk, encodeI_fields]

theorem encodeR_eq {n : BitVec 4} (hf : familyField op = f) (hn : (lowNibbleField op).toNat = n.toNat) :
    encodeR f (xField op) (yField op) n = op := by
  rw [← hf, ← BitVec.eq_of_toNat_eq hn, encodeR_fields]

end Fields

/-! ### What the decoder can answer -/

/-- The table of 30_encoding R76: the illegal words, family by family. -/
def ListedIllegal (op : Word) : Prop :=
  (familyField op = 0x0 ∧ op ≠ 0x00E0 ∧ op ≠ 0x00EE) ∨
  (familyField op = 0x5 ∧ lowNibbleField op ≠ 0) ∨
  (familyField op = 0x8 ∧ lowNibbleField op ∈ [0x8#4, 0x9#4, 0xA#4, 0xB#4, 0xC#4, 0xD#4, 0xF#4]) ∨
  (familyField op = 0x9 ∧ lowNibbleField op ≠ 0) ∨
  (familyField op = 0xE ∧ kkField op ∉ [0x9E#8, 0xA1#8]) ∨
  (familyField op = 0xF ∧
    kkField op ∉ [0x07#8, 0x0A#8, 0x15#8, 0x18#8, 0x1E#8, 0x29#8, 0x33#8, 0x55#8, 0x65#8])

/-- The answers the decoder has for a word: an instruction with that word, or the rejection of a listed word. -/
inductive Decoded (op : Word) : Except DecodeError Instr → Prop where
  | instr {ins : Instr} (hword : encode ins = op) : Decoded op (.ok ins)
  | illegal (hlisted : ListedIllegal op) : Decoded op (.error (.unknownOpcode op))

/-- Family 0 has the two words D4 names. -/
theorem decoded_family0 {op : Word} (hf : familyField op = 0x0) :
    Decoded op (if op = 0x00E0#16 then .ok .cls else if op = 0x00EE#16 then .ok .ret
      else .error (.unknownOpcode op)) := by
  by_cases hcls : op = 0x00E0#16
  · rw [if_pos hcls]
    exact .instr hcls.symm
  · by_cases hret : op = 0x00EE#16
    · rw [if_neg hcls, if_pos hret]
      exact .instr hret.symm
    · rw [if_neg hcls, if_neg hret]
      exact .illegal (.inl ⟨hf, hcls, hret⟩)

/-- Family 8 decodes every low nibble but the seven R76 lists. -/
theorem decoded_family8 {op : Word} (hf : familyField op = 0x8) : Decoded op (decodeFamily8 op) := by
  unfold decodeFamily8
  split
  case h_10 =>
    have hlow : ∀ n : BitVec 4, n.toNat ∉ [0, 1, 2, 3, 4, 5, 6, 7, 14] →
        n ∈ [0x8#4, 0x9#4, 0xA#4, 0xB#4, 0xC#4, 0xD#4, 0xF#4] := by decide
    exact .illegal (.inr (.inr (.inl ⟨hf, hlow _ (by simp_all)⟩)))
  all_goals
    next hn => exact .instr (encodeR_eq hf hn)

/-- Family E decodes two low bytes. -/
theorem decoded_familyE {op : Word} (hf : familyField op = 0xE) : Decoded op (decodeFamilyE op) := by
  unfold decodeFamilyE
  split
  case h_3 =>
    refine .illegal (.inr (.inr (.inr (.inr (.inl ⟨hf, ?_⟩)))))
    simp_all [← BitVec.toNat_inj]
  all_goals
    next hk => exact .instr (encodeI_eq_of_kk hf hk)

/-- Family F decodes nine low bytes. -/
theorem decoded_familyF {op : Word} (hf : familyField op = 0xF) : Decoded op (decodeFamilyF op) := by
  unfold decodeFamilyF
  split
  case h_10 =>
    refine .illegal (.inr (.inr (.inr (.inr (.inr ⟨hf, ?_⟩)))))
    simp_all [← BitVec.toNat_inj]
  all_goals
    next hk => exact .instr (encodeI_eq_of_kk hf hk)

/-- Families 5 and 9 decode where the low nibble is 0 (D5). -/
theorem decoded_of_lowNibble_zero {op : Word} {ins : Instr} (hword : lowNibbleField op = 0#4 → encode ins = op)
    (hlisted : lowNibbleField op ≠ 0#4 → ListedIllegal op) :
    Decoded op (if lowNibbleField op = 0#4 then .ok ins else .error (.unknownOpcode op)) := by
  by_cases hn : lowNibbleField op = 0#4
  · rw [if_pos hn]
    exact .instr (hword hn)
  · rw [if_neg hn]
    exact .illegal (hlisted hn)

/-- The decoder family by family: an instruction whose word it read, or the rejection of a listed word. -/
theorem decoded_decode (op : Word) : Decoded op (decode op) := by
  have family {f : BitVec 4} (hf : (familyField op).toNat = f.toNat) : familyField op = f := BitVec.eq_of_toNat_eq hf
  unfold decode
  split
  · next hf => exact decoded_family0 (family hf)
  · next hf => exact .instr (encodeA_eq hf)
  · next hf => exact .instr (encodeA_eq hf)
  · next hf => exact .instr (encodeI_eq hf)
  · next hf => exact .instr (encodeI_eq hf)
  · next hf =>
    exact decoded_of_lowNibble_zero (fun hn => encodeR_eq (family hf) (congrArg _ hn)) fun hn =>
      .inr (.inl ⟨family hf, hn⟩)
  · next hf => exact .instr (encodeI_eq hf)
  · next hf => exact .instr (encodeI_eq hf)
  · next hf => exact decoded_family8 (family hf)
  · next hf =>
    exact decoded_of_lowNibble_zero (fun hn => encodeR_eq (family hf) (congrArg _ hn)) fun hn =>
      .inr (.inr (.inr (.inl ⟨family hf, hn⟩)))
  · next hf => exact .instr (encodeA_eq hf)
  · next hf => exact .instr (encodeA_eq hf)
  · next hf => exact .instr (encodeI_eq hf)
  · next hf => exact .instr (encodeR_eq (family hf) (by rw [nField, nibbleOf_nibbleIndex]))
  · next hf => exact decoded_familyE (family hf)
  · have hf : (familyField op).toNat = 15 := by
      have hlt := (familyField op).isLt
      simp only [imp_false] at *
      omega
    exact decoded_familyF (family hf)

/-- Everything the decoder can answer. -/
theorem decode_cases (op : Word) :
    (∃ ins, decode op = .ok ins ∧ encode ins = op) ∨ (decode op = .error (.unknownOpcode op) ∧ ListedIllegal op) := by
  have hdecoded := decoded_decode op
  generalize decode op = answer at hdecoded ⊢
  cases hdecoded with
  | instr hword => exact .inl ⟨_, rfl, hword⟩
  | illegal hlisted => exact .inr ⟨rfl, hlisted⟩

/-- Settles O3: an instruction the decoder answers has the word it read. -/
theorem encodeUndoesDecode : Obligations.EncodeUndoesDecode := by
  intro op ins hdecode
  obtain ⟨other, hother, hword⟩ | ⟨herror, -⟩ := decode_cases op
  · cases hother.symm.trans hdecode
    exact hword
  · cases herror.symm.trans hdecode

/-! ### The opcode map (30_encoding R75) -/

/-- Every instruction's word matches the row R75 gives it. -/
theorem rowOfWord : (ins : Instr) → Laws.RowOfWord.Statement ins
  | .cls => Laws.RowOfWord.cls
  | .ret => Laws.RowOfWord.ret
  | .jp nnn => Laws.RowOfWord.jp nnn
  | .call nnn => Laws.RowOfWord.call nnn
  | .seImm x kk => Laws.RowOfWord.seImm x kk
  | .sneImm x kk => Laws.RowOfWord.sneImm x kk
  | .seReg x y => Laws.RowOfWord.seReg x y
  | .ldImm x kk => Laws.RowOfWord.ldImm x kk
  | .addImm x kk => Laws.RowOfWord.addImm x kk
  | .ldReg x y => Laws.RowOfWord.ldReg x y
  | .orReg x y => Laws.RowOfWord.orReg x y
  | .andReg x y => Laws.RowOfWord.andReg x y
  | .xorReg x y => Laws.RowOfWord.xorReg x y
  | .addReg x y => Laws.RowOfWord.addReg x y
  | .sub x y => Laws.RowOfWord.sub x y
  | .shr x y => Laws.RowOfWord.shr x y
  | .subn x y => Laws.RowOfWord.subn x y
  | .shl x y => Laws.RowOfWord.shl x y
  | .sneReg x y => Laws.RowOfWord.sneReg x y
  | .ldI nnn => Laws.RowOfWord.ldI nnn
  | .jpV0 nnn => Laws.RowOfWord.jpV0 nnn
  | .rnd x kk => Laws.RowOfWord.rnd x kk
  | .drw x y n => Laws.RowOfWord.drw x y n
  | .skp x => Laws.RowOfWord.skp x
  | .sknp x => Laws.RowOfWord.sknp x
  | .ldVxDt x => Laws.RowOfWord.ldVxDt x
  | .ldVxK x => Laws.RowOfWord.ldVxK x
  | .ldDtVx x => Laws.RowOfWord.ldDtVx x
  | .ldStVx x => Laws.RowOfWord.ldStVx x
  | .addI x => Laws.RowOfWord.addI x
  | .ldF x => Laws.RowOfWord.ldF x
  | .ldB x => Laws.RowOfWord.ldB x
  | .storeRegs x => Laws.RowOfWord.storeRegs x
  | .loadRegs x => Laws.RowOfWord.loadRegs x

@[simp] theorem wellFormedWord_encode (ins : Instr) : wellFormedWord (encode ins) = true := by
  obtain ⟨row, hrow, hcovers⟩ := rowOfWord ins
  exact List.any_eq_true.mpr ⟨row, List.mem_of_find?_eq_some hrow, hcovers⟩

theorem covers_iff (row : OpcodeRow) (op : Word) : row.covers op = true ↔ op &&& row.mask = row.value := beq_iff_eq

/-- Settles O5: a word that matches two rows gives their values the same bits under the other's mask, and the values of
any two rows of the table differ there. -/
theorem opcodeRowsNeverOverlap : Obligations.OpcodeRowsNeverOverlap := by
  have hdiffer : opcodeMap.Pairwise fun row other => row.value &&& other.mask ≠ other.value &&& row.mask := by decide
  refine hdiffer.imp fun hne op hcovers => hne ?_
  simp only [covers_iff] at hcovers
  obtain ⟨hrow, hother⟩ := hcovers
  rw [← hrow, ← hother, BitVec.and_assoc, BitVec.and_assoc, BitVec.and_comm (OpcodeRow.mask _)]

/-! The fields of a masked word. -/

theorem familyField_and (op mask : Word) : familyField (op &&& mask) = familyField op &&& familyField mask :=
  BitVec.extractLsb'_and

theorem lowNibbleField_and (op mask : Word) :
    lowNibbleField (op &&& mask) = lowNibbleField op &&& lowNibbleField mask :=
  BitVec.extractLsb'_and

theorem kkField_and (op mask : Word) : kkField (op &&& mask) = kkField op &&& kkField mask :=
  BitVec.extractLsb'_and

/-- A row's mask keeps the family and the secondary opcode its family has: the whole word in family 0, the low nibble in
families 5, 8 and 9, the low byte in families E and F. -/
theorem mask_keeps_secondary : ∀ row ∈ opcodeMap,
    familyField row.mask = BitVec.allOnes 4 ∧
    (familyField row.value = 0x0 → row.mask = BitVec.allOnes 16) ∧
    (familyField row.value ∈ [0x5#4, 0x8#4, 0x9#4] → lowNibbleField row.mask = BitVec.allOnes 4) ∧
    (familyField row.value ∈ [0xE#4, 0xF#4] → kkField row.mask = BitVec.allOnes 8) := by decide

theorem not_listedIllegal_value {row : OpcodeRow} (hrow : row ∈ opcodeMap) : ¬ ListedIllegal row.value := by
  revert row
  unfold ListedIllegal
  decide

/-- R76 lists a word by the bits the mask of its row keeps, so with the word it lists the row's value. -/
theorem listedIllegal_value {op : Word} {row : OpcodeRow} (hrow : row ∈ opcodeMap) (hcovers : row.covers op = true)
    (hlisted : ListedIllegal op) : ListedIllegal row.value := by
  rw [covers_iff] at hcovers
  obtain ⟨hfamily, hword, hnibble, hbyte⟩ := mask_keeps_secondary row hrow
  have family_eq : familyField op = familyField row.value := by
    rw [← hcovers, familyField_and, hfamily, BitVec.and_allOnes]
  rw [← family_eq] at hword hnibble hbyte
  have word_eq (h : familyField op = 0x0) : op = row.value := by
    rw [← hcovers, hword h, BitVec.and_allOnes]
  have nibble_eq (h : familyField op ∈ [0x5#4, 0x8#4, 0x9#4]) : lowNibbleField op = lowNibbleField row.value := by
    rw [← hcovers, lowNibbleField_and, hnibble h, BitVec.and_allOnes]
  have byte_eq (h : familyField op ∈ [0xE#4, 0xF#4]) : kkField op = kkField row.value := by
    rw [← hcovers, kkField_and, hbyte h, BitVec.and_allOnes]
  unfold ListedIllegal at hlisted ⊢
  rw [← family_eq]
  obtain ⟨hf, h⟩ | ⟨hf, h⟩ | ⟨hf, h⟩ | ⟨hf, h⟩ | ⟨hf, h⟩ | ⟨hf, h⟩ := hlisted
  · exact .inl ⟨hf, word_eq hf ▸ h⟩
  · exact .inr (.inl ⟨hf, nibble_eq (by simp [hf]) ▸ h⟩)
  · exact .inr (.inr (.inl ⟨hf, nibble_eq (by simp [hf]) ▸ h⟩))
  · exact .inr (.inr (.inr (.inl ⟨hf, nibble_eq (by simp [hf]) ▸ h⟩)))
  · exact .inr (.inr (.inr (.inr (.inl ⟨hf, byte_eq (by simp [hf]) ▸ h⟩))))
  · exact .inr (.inr (.inr (.inr (.inr ⟨hf, byte_eq (by simp [hf]) ▸ h⟩))))

theorem wellFormedWord_of_listedIllegal {op : Word} (hlisted : ListedIllegal op) : wellFormedWord op = false :=
  List.any_eq_false.mpr fun _row hrow hcovers =>
    not_listedIllegal_value hrow (listedIllegal_value hrow hcovers hlisted)

/-- Settles O4: the decoder answers an instruction, whose word the map accepts, or rejects a listed word, which it does
not. -/
theorem decodeAcceptsExactlyMappedWords : Obligations.DecodeAcceptsExactlyMappedWords := by
  intro op
  obtain ⟨ins, hdecode, rfl⟩ | ⟨hdecode, hlisted⟩ := decode_cases op
  · simp [hdecode]
  · simp [hdecode, wellFormedWord_of_listedIllegal hlisted]

/-- Settles O6: a word the map rejects is no instruction's, so the decoder rejects it as listed; and a listed word
matches no row. -/
theorem illegalWordsAreThoseListed : Obligations.IllegalWordsAreThoseListed := by
  refine fun op => ⟨fun hwf => ?_, wellFormedWord_of_listedIllegal⟩
  obtain ⟨ins, -, rfl⟩ | ⟨-, hlisted⟩ := decode_cases op
  · simp at hwf
  · exact hlisted

/-- Settles O1: the nine words are evaluated. -/
theorem writtenOutWordsDecode : Obligations.WrittenOutWordsDecode := by
  unfold Obligations.WrittenOutWordsDecode
  decide

end Sys2Proof

namespace Sys2Proof.Machine

/-! ### The step on a decoded instruction -/

/-- Settles O7: the fetch succeeds up to PC = 4094 with the word of the two bytes, and RUNNING executes what it decodes
to. -/
theorem stepRunsDecodedInstruction : Obligations.StepRunsDecodedInstruction := by
  intro s ins hm hpc hdecode
  rw [step_running s _ hm (s.fetch_ok (by omega)), hdecode]

/-- Settles O59: `step_inv` names the next state. -/
theorem everyStepAnswersANextState : Obligations.EveryStepAnswersANextState := fun _s hs =>
  (step_inv hs).imp fun _t ht => ht.1

end Sys2Proof.Machine
end

section
/-! PROOFS. Frames and control flow (40_control_flow): what each update of the state leaves unchanged, from these the
jumps, the calls, the returns and the skips, and the frame of the six instructions that can take a fault. -/

namespace Sys2Proof.Machine

/-! ### What an update leaves unchanged -/

section Frames

variable {P Q : Component → Prop} {s t u : State}

theorem UnchangedBut.refl : UnchangedBut P s s := fun c _ => by
  cases c with
  | _ => rfl

theorem UnchangedBut.mono (h : UnchangedBut P s t) (hPQ : ∀ c, P c → Q c) : UnchangedBut Q s t :=
  fun c hc => h c (mt (hPQ c) hc)

theorem UnchangedBut.trans (hst : UnchangedBut P s t) (htu : UnchangedBut P t u) : UnchangedBut P s u :=
  fun c hc => by
    have h₁ := hst c hc
    have h₂ := htu c hc
    cases c with
    | _ => exact Eq.trans h₂ h₁

theorem UnchangedBut.jump (h : UnchangedBut P s t) (hpc : P .pc) (w : Word) : UnchangedBut P s (t.jump w) :=
  h.trans fun c hc => by
    cases c with
    | pc => exact absurd hpc hc
    | _ => rfl

theorem UnchangedBut.setReg (h : UnchangedBut P s t) {x : RegIdx} (hx : P (.v x)) (b : Byte) :
    UnchangedBut P s (t.setReg x b) :=
  h.trans fun c hc => by
    cases c with
    | v r =>
      have hr : r ≠ x := fun hr => hc (hr ▸ hx)
      simp [Component.same, hr]
    | _ => rfl

theorem UnchangedBut.setRegs (h : UnchangedBut P s t) {v : Vector Byte 16}
    (hv : ∀ r : RegIdx, v[r.val] ≠ t.reg r → P (.v r)) : UnchangedBut P s (t.setRegs v) :=
  h.trans fun c hc => by
    cases c with
    | v r => exact not_not.mp fun hne => hc (hv r hne)
    | _ => rfl

theorem UnchangedBut.setMem (h : UnchangedBut P s t) {m : Memory}
    (hm : ∀ a, Memory.read m a ≠ Memory.read t.mem a → P (.memByte a)) : UnchangedBut P s (t.setMem m) :=
  h.trans fun c hc => by
    cases c with
    | memByte a => exact not_not.mp fun hne => hc (hm a hne)
    | _ => rfl

theorem UnchangedBut.setFb (h : UnchangedBut P s t) {fb : Framebuffer}
    (hfb : ∀ r k, Framebuffer.get fb r k ≠ Framebuffer.get t.fb r k → P (.pixel r k)) :
    UnchangedBut P s (t.setFb fb) :=
  h.trans fun c hc => by
    cases c with
    | pixel r k => exact not_not.mp fun hne => hc (hfb r k hne)
    | _ => rfl

/-- A push writes the slot that SP counts, and SP (40_control_flow R93). -/
theorem UnchangedBut.push (h : UnchangedBut P s t) (hsp : P .sp) (hlt : t.sp.toNat < 16)
    (hslot : P (.stackSlot ⟨t.sp.toNat, hlt⟩)) (w : Word) : UnchangedBut P s (t.push hlt w) :=
  h.trans fun c hc => by
    cases c with
    | sp => exact absurd hsp hc
    | stackSlot k =>
      have hk : t.sp.toNat ≠ k.val := fun hk => hc ((Fin.ext hk : (⟨t.sp.toNat, hlt⟩ : Fin 16) = k) ▸ hslot)
      simp [Component.same, hk]
    | _ => rfl

/-- A pop writes PC and SP, and leaves every slot (40_control_flow R91). -/
theorem UnchangedBut.pop (h : UnchangedBut P s t) (hpc : P .pc) (hsp : P .sp) (hlt : t.sp.toNat - 1 < 16) :
    UnchangedBut P s (t.pop hlt) :=
  h.trans fun c hc => by
    cases c with
    | pc => exact absurd hpc hc
    | sp => exact absurd hsp hc
    | _ => rfl

/-- Fault entry writes MODE and FAULT (60_exceptions R157). -/
theorem UnchangedBut.raise (h : UnchangedBut P s t) (hmode : P .mode) (hfault : P .fault) (kind : FaultKind)
    (opcode addr : Option Word) : UnchangedBut P s (t.raise kind opcode addr) :=
  h.trans fun c hc => by
    cases c with
    | mode => exact absurd hmode hc
    | fault => exact absurd hfault hc
    | _ => rfl

end Frames

/-! ### Jumps -/

theorem zextAddr_toNat (nnn : Addr) : (zextAddr nnn).toNat = nnn.toNat :=
  BitVec.toNat_setWidth_of_le (by decide)

/-- The sum of JP V0, nnn does not wrap (40_control_flow R98, decision D29). -/
theorem jpV0_target_toNat (nnn : Addr) (b : Byte) :
    (zextAddr nnn + zextByte b).toNat = nnn.toNat + b.toNat := by
  have hb : (zextByte b).toNat = b.toNat := BitVec.toNat_setWidth_of_le (by decide)
  rw [BitVec.toNat_add, zextAddr_toNat, hb]
  omega

/-- Settles O18: both instructions are one write of PC, of nnn and of a sum that does not wrap. -/
theorem jumpsReachTheirTargets : Obligations.JumpsReachTheirTargets := fun s nnn =>
  ⟨⟨_, rfl, zextAddr_toNat nnn, UnchangedBut.refl.jump (by simp) _⟩,
    ⟨_, rfl, jpV0_target_toNat nnn (s.reg 0), jpV0_target_le nnn (s.reg 0), UnchangedBut.refl.jump (by simp) _⟩⟩

/-! ### Calls and returns -/

/-- CALL with a free slot is the push and the jump (40_control_flow R93). -/
theorem execCall_of_lt {s : State} (h : s.sp.toNat < 16) (nnn : Addr) :
    execCall nnn s = .next ((s.push h (s.pc + 2)).jump (zextAddr nnn)) := by
  obtain ⟨h16, -⟩ | ⟨_, hcall⟩ | ⟨h16, -⟩ := execCall_cases s nnn
  · simp [h16] at h
  · exact hcall
  · omega

/-- RET with 1 to 16 return addresses held is the pop (40_control_flow R91). -/
theorem execRet_of_pos {s : State} (hpos : 0 < s.sp.toNat) (h : s.sp.toNat - 1 < 16) :
    execRet s = .next (s.pop h) := by
  obtain ⟨h0, -⟩ | ⟨-, -, _, hret⟩ | ⟨h16, -⟩ := execRet_cases s
  · simp [h0] at hpos
  · exact hret
  · omega

/-- Settles O19: the pushed slot reads PC + 2, and SP + 1 does not wrap below 16. -/
theorem callPushesReturnAddress : Obligations.CallPushesReturnAddress := by
  intro s nnn h
  have hsp : (s.sp + 1).toNat = s.sp.toNat + 1 := by bv_omega
  exact ⟨_, execCall_of_lt h nnn, by simp, hsp, zextAddr_toNat nnn,
    (UnchangedBut.refl.push (by simp) h (by simp) _).jump (by simp) _⟩

/-- Settles O20: the slot popped is the one below SP. -/
theorem returnPopsReturnAddress : Obligations.ReturnPopsReturnAddress := by
  intro s k hk
  have h : s.sp.toNat - 1 < 16 := by omega
  have hslot : s.sp.toNat - 1 = k.val := by omega
  have hsp : (s.sp - 1).toNat = k.val := by bv_omega
  exact ⟨s.pop h, execRet_of_pos (by omega) h, by simp [hslot], hsp, UnchangedBut.refl.pop (by simp) (by simp) h⟩

/-- Settles O21: the RET pops what the CALL pushed (O19, O20), and SP is back where it was. -/
theorem callThenReturnResumes : Obligations.CallThenReturnResumes := by
  intro s nnn h
  obtain ⟨t, hcall, hslot, hsp, -, hframe⟩ := callPushesReturnAddress s nnn h
  obtain ⟨u, hret, hpc, hback, hframe'⟩ := returnPopsReturnAddress t ⟨s.sp.toNat, h⟩ hsp
  have hspback : u.sp = s.sp := BitVec.eq_of_toNat_eq hback
  have hboth : OnlyChanged [.pc, .sp, .stackSlot ⟨s.sp.toNat, h⟩] s u :=
    UnchangedBut.trans hframe (UnchangedBut.mono hframe' fun c => List.mem_append_left _)
  refine ⟨t, hcall, u, hret, hpc.trans hslot, hspback, fun c hc => ?_⟩
  by_cases hcsp : c = .sp
  · subst hcsp
    exact hspback
  · exact hboth c (by simpa [hcsp] using hc)

/-! ### Skips -/

/-- The skip rule, with the condition as a proposition (40_control_flow R99). -/
theorem next_skipIf (s : State) {condition : Bool} {p : Prop} [Decidable p] (h : condition = true ↔ p) :
    (.next (s.skipIf condition) : Host.Outcome State Fault Refusal) =
      .next { s with pc := if p then s.pc + 4 else s.pc + 2 } := by
  by_cases hp : p
  · simp [State.jump, h.mpr hp, hp]
  · simp [State.jump, mt h.mp hp, hp]

/-- Settles O22: the comparison is the skip's condition. -/
theorem skipIfEqualImmediate : Obligations.SkipIfEqualImmediate := fun s _x _kk => next_skipIf s beq_iff_eq

/-- A byte's low nibble is its value modulo 16 (decisions D10 and D11). -/
@[simp] theorem lowNibble_val (b : Byte) : (lowNibble b).val = b.toNat % 16 := by
  simp [lowNibble, nibbleIndex]

/-- Settles O23: each skip with its own condition, and the key of the two key skips is the low nibble of Vx. -/
theorem skipsFollowTheirConditions : Obligations.SkipsFollowTheirConditions := by
  refine fun s x y kk => ⟨next_skipIf s bne_iff_ne, next_skipIf s beq_iff_eq, next_skipIf s bne_iff_ne,
    fun k hk => ?_⟩
  obtain rfl : lowNibble (s.reg x) = k := Fin.ext ((lowNibble_val _).trans hk.symm)
  exact ⟨next_skipIf s Iff.rfl, next_skipIf s Bool.not_eq_eq_eq_not⟩

/-! ### The pixels a sprite leaves unchanged -/

/-- The sprite row `bits`, drawn as row `row` at column `cx` and row `cy`, has a 1 bit aimed at pixel (r, c)
(43_display R132). -/
def RowHits (cx cy row : Nat) (bits : Byte) (r : Fin 32) (c : Fin 64) : Prop :=
  ∃ col < 8, spriteBit bits col = true ∧ r = pixelRow cy row ∧ c = pixelCol cx col

/-- A row changes no pixel it does not hit. -/
theorem blitRow_get_of_not_hits {cx cy row : Nat} {bits : Byte} {r : Fin 32} {c : Fin 64}
    (h : ¬ RowHits cx cy row bits r c) (fc : Framebuffer × Bool) :
    Framebuffer.get (blitRow cx cy row bits fc).1 r c = Framebuffer.get fc.1 r c := by
  unfold blitRow
  refine List.foldlRecOn (motive := fun d : Framebuffer × Bool => Framebuffer.get d.1 r c = Framebuffer.get fc.1 r c)
    (List.range 8) _ rfl fun d hd col hcol => ?_
  have hmiss : (spriteBit bits col && decide (r = pixelRow cy row ∧ c = pixelCol cx col)) = false := by
    simpa using fun hbit hr hc => h ⟨col, List.mem_range.mp hcol, hbit, hr, hc⟩
  rw [blitBit_get, hmiss, Bool.xor_false, hd]

/-- A pixel that the rows of a sprite, numbered from `row`, change is hit by one of them. -/
theorem exists_rowHits_of_blitRows_get_ne {cx cy row : Nat} {rows : List Byte} {fc : Framebuffer × Bool}
    {r : Fin 32} {c : Fin 64}
    (h : Framebuffer.get (blitRows cx cy row rows fc).1 r c ≠ Framebuffer.get fc.1 r c) :
    ∃ k, ∃ hk : k < rows.length, RowHits cx cy (row + k) rows[k] r c := by
  induction rows generalizing row fc with
  | nil => exact absurd rfl h
  | cons bits rest ih =>
    by_cases hhit : RowHits cx cy row bits r c
    · exact ⟨0, by simp, hhit⟩
    · rw [← blitRow_get_of_not_hits hhit fc] at h
      obtain ⟨k, hk, hits⟩ := ih h
      exact ⟨k + 1, by simpa using hk, by simpa [Nat.add_assoc, Nat.add_comm 1 k] using hits⟩

/-- A pixel that the sprite at I changes lies under one of its 1 bits (43_display R132). -/
theorem spriteCovers_of_blit_get_ne {s : State} {x y : RegIdx} {n : Fin 16} {r : Fin 32} {c : Fin 64}
    (h : Framebuffer.get (blit s.fb (s.reg x) (s.reg y) (s.spriteRows n)).1 r c ≠ Framebuffer.get s.fb r c) :
    SpriteCovers s x y n r c := by
  obtain ⟨k, hk, col, hcol, hbit, rfl, rfl⟩ := exists_rowHits_of_blitRows_get_ne h
  have hbyte : (s.spriteRows n)[k] = Memory.read s.mem (s.i.toNat + k) := Memory.getElem_readBytes _ _ _ _ hk
  rw [hbyte] at hbit
  exact ⟨k, col, by simpa [State.spriteRows] using hk, hcol, hbit, by simp [pixelRow], rfl⟩

/-! ### The frame of the instructions that can take a fault -/

/-- A byte that a store of several bytes changed is one of theirs (20_memory R53). -/
theorem Memory.exists_offset_of_read_writeBytes_ne {m : Memory} {bytes : List Byte} {a b : Nat}
    (hwf : Memory.wf m) (ha : a + bytes.length ≤ 4096)
    (h : Memory.read (Memory.writeBytes m a bytes) b ≠ Memory.read m b) : ∃ k < bytes.length, b = a + k := by
  rw [Memory.read_writeBytes bytes m a b ha hwf] at h
  by_cases hin : a ≤ b ∧ b - a < bytes.length
  · exact ⟨b - a, hin.2, by omega⟩
  · exact absurd (dif_neg hin) h

/-- A store at I that completes writes PC and its own bytes (42_index_memory R124, R125). -/
theorem unchangedBut_of_store {s t : State} {ins : Instr} {bytes : List Byte} (hwf : Memory.wf s.mem)
    (h : s.accessAtI ins bytes.length (s.setMem (Memory.writeBytes s.mem s.i.toNat bytes)).advance = .next t)
    (hm : t.mode ≠ .faulted) :
    UnchangedBut (fun c => c = .pc ∨ ∃ k < bytes.length, c = .memByte (s.i.toNat + k)) s t := by
  obtain ⟨hrange, rfl⟩ := State.accessAtI_completed h hm
  refine (UnchangedBut.refl.setMem fun a ha => .inr ?_).jump (.inl rfl) _
  obtain hnil | hrange := hrange
  · rw [List.length_eq_zero_iff.mp hnil] at ha
    exact absurd rfl ha
  · obtain ⟨k, hk, rfl⟩ := Memory.exists_offset_of_read_writeBytes_ne hwf hrange ha
    exact ⟨k, hk, rfl⟩

theorem ret_frameKept {s t : State} (h : exec .ret s = .next t) (hm : t.mode ≠ .faulted) : FrameKept .ret s t := by
  obtain ⟨-, hret⟩ | ⟨-, -, hlt, hret⟩ | ⟨-, hret⟩ := execRet_cases s
  · cases hret.symm.trans h
    exact absurd rfl hm
  · cases hret.symm.trans h
    exact UnchangedBut.refl.pop (.inl rfl) (.inr rfl) hlt
  · cases hret.symm.trans h

theorem call_frameKept {s t : State} {nnn : Addr} (h : exec (.call nnn) s = .next t) (hm : t.mode ≠ .faulted) :
    FrameKept (.call nnn) s t := by
  obtain ⟨-, hcall⟩ | ⟨hlt, hcall⟩ | ⟨-, hcall⟩ := execCall_cases s nnn
  · cases hcall.symm.trans h
    exact absurd rfl hm
  · cases hcall.symm.trans h
    exact (UnchangedBut.refl.push (.inr (.inl rfl)) hlt (.inr (.inr ⟨_, rfl, rfl⟩)) _).jump (.inl rfl) _
  · cases hcall.symm.trans h

theorem ldB_frameKept {s t : State} {x : RegIdx} (hwf : Memory.wf s.mem) (h : exec (.ldB x) s = .next t)
    (hm : t.mode ≠ .faulted) : FrameKept (.ldB x) s t :=
  unchangedBut_of_store (bytes := decimalDigits (s.reg x)) hwf h hm

theorem storeRegs_frameKept {s t : State} {x : RegIdx} (hwf : Memory.wf s.mem)
    (h : exec (.storeRegs x) s = .next t) (hm : t.mode ≠ .faulted) : FrameKept (.storeRegs x) s t := by
  have hframe := unchangedBut_of_store (ins := .storeRegs x) (bytes := s.regsUpTo x) hwf
    (by rw [State.length_regsUpTo]; exact h) hm
  simpa only [FrameKept, mayWrite, State.length_regsUpTo, Nat.lt_succ_iff] using hframe

theorem loadRegs_frameKept {s t : State} {x : RegIdx} (h : exec (.loadRegs x) s = .next t)
    (hm : t.mode ≠ .faulted) : FrameKept (.loadRegs x) s t := by
  obtain ⟨-, rfl⟩ := State.accessAtI_completed (ins := .loadRegs x) h hm
  refine (UnchangedBut.refl.setRegs fun r hr => .inr ⟨r, ?_, rfl⟩).jump (.inl rfl) _
  by_contra hrx
  simp [State.regsLoadedUpTo, hrx] at hr

theorem drw_frameKept {s t : State} {x y : RegIdx} {n : Fin 16} (h : exec (.drw x y n) s = .next t)
    (hm : t.mode ≠ .faulted) : FrameKept (.drw x y n) s t := by
  obtain ⟨-, rfl⟩ := State.accessAtI_completed (ins := .drw x y n) h hm
  exact ((UnchangedBut.refl.setFb fun r k hne =>
    .inr (.inr ⟨r, k, rfl, spriteCovers_of_blit_get_ne hne⟩)).setReg (.inr (.inl rfl)) _).jump (.inl rfl) _

/-- A fault is the only effect that takes MODE to FAULTED (60_exceptions R157). -/
theorem Effect.eq_raise_of_faulted {ins : Instr} {s t : State} (h : Effect ins s t) (hs : s.mode ≠ .faulted)
    (ht : t.mode = .faulted) : ∃ kind opcode addr, t = s.raise kind opcode addr := by
  cases h with
  | fault kind addr => exact ⟨kind, _, addr, rfl⟩
  | startWait => cases ht
  | _ => exact absurd ht hs

/-- Settles O54: without a fault the frame of each of the six instructions, with one that of fault entry. -/
theorem stackAndMemoryInstructionFrame : Obligations.StackAndMemoryInstructionFrame := by
  intro ins s t hwf hs hins h
  constructor
  · intro hm
    obtain rfl | ⟨nnn, rfl⟩ | ⟨x, rfl⟩ | ⟨x, rfl⟩ | ⟨x, rfl⟩ | ⟨x, y, n, rfl⟩ := hins
    · exact ret_frameKept h hm
    · exact call_frameKept h hm
    · exact ldB_frameKept hwf h hm
    · exact storeRegs_frameKept hwf h hm
    · exact loadRegs_frameKept h hm
    · exact drw_frameKept h hm
  · intro hm
    obtain ⟨kind, opcode, addr, rfl⟩ := (exec_effect h).eq_raise_of_faulted hs hm
    exact UnchangedBut.refl.raise (by simp) (by simp) kind opcode addr

end Sys2Proof.Machine
end

section
/-! PROOFS. The register instructions (41_alu): what the two ends of an instruction leave in the registers and leave
unchanged, the results and flags as numbers, and from these each instruction. -/

namespace Sys2Proof.Machine

/-! ### The end of a register instruction (41_alu R100) -/

section Ends

variable {P : Component → Prop} {s t : State} {x : RegIdx} {result : Byte} {flag : Bool}

theorem State.finish_reg : (s.finish x result).reg x = result := by simp

/-- The result is left where the flag does not replace it (10_state R24, decision D7). -/
theorem State.finishWithFlag_reg_toNat {n : Nat} (hn : result.toNat = n) (hx : x ≠ VF) :
    ((s.finishWithFlag x result flag).reg x).toNat = n := by simp [hx, hn]

/-- The flag is written last, so VF holds it for every x (10_state R24, decision D7). -/
theorem State.finishWithFlag_flag : (s.finishWithFlag x result flag).reg VF = flagByte flag := by simp

theorem UnchangedBut.finish (h : UnchangedBut P s t) (hpc : P .pc) (hx : P (.v x)) :
    UnchangedBut P s (t.finish x result) := (h.setReg hx result).jump hpc _

theorem UnchangedBut.countDraw (h : UnchangedBut P s t) (hdraws : P .draws) : UnchangedBut P s t.countDraw :=
  h.trans fun c hc => by
    cases c with
    | draws => exact absurd hdraws hc
    | _ => rfl

theorem onlyChanged_finish : OnlyChanged [.pc, .v x] s (s.finish x result) :=
  UnchangedBut.refl.finish (by simp) (by simp)

theorem onlyChanged_finishWithFlag : OnlyChanged [.pc, .v x, .v VF] s (s.finishWithFlag x result flag) :=
  ((UnchangedBut.refl.setReg (by simp) result).setReg (by simp) (flagByte flag)).jump (by simp) _

end Ends

/-! ### Results and flags as numbers -/

section Values

variable (a b : Byte)

/-- The 9-bit sum of two bytes does not wrap (41_alu R107). -/
theorem sum9_toNat : (sum9 a b).toNat = a.toNat + b.toNat := by
  have ha : (a.setWidth 9).toNat = a.toNat := BitVec.toNat_setWidth_of_le (by decide)
  have hb : (b.setWidth 9).toNat = b.toNat := BitVec.toNat_setWidth_of_le (by decide)
  rw [sum9, BitVec.toNat_add, ha, hb]
  omega

theorem sum9_low_toNat : ((sum9 a b).setWidth 8).toNat = (a.toNat + b.toNat) % 256 := by
  rw [BitVec.toNat_setWidth, sum9_toNat]

theorem carryOut_iff : carryOut a b = true ↔ 255 < a.toNat + b.toNat := by
  have hbit : carryOut a b = decide (256 ≤ (sum9 a b).toNat) :=
    (BitVec.msb_eq_getLsbD_last _).symm.trans (BitVec.msb_eq_decide _)
  rw [hbit, decide_eq_true_iff, sum9_toNat, Nat.succ_le_iff]

theorem strictlyGreater_iff : strictlyGreater a b = true ↔ b.toNat < a.toNat := decide_eq_true_iff

/-- A difference of bytes, with 256 added first so that it does not stop at 0 (41_alu R108, R110). -/
theorem toNat_sub_byte : (a - b).toNat = (a.toNat + 256 - b.toNat) % 256 := by
  rw [BitVec.toNat_sub]
  omega

theorem shiftRight_one_toNat : (a >>> 1).toNat = a.toNat / 2 := by
  rw [BitVec.toNat_ushiftRight, Nat.shiftRight_one]

theorem shiftLeft_one_toNat : (a <<< 1).toNat = 2 * a.toNat % 256 := by
  rw [BitVec.toNat_shiftLeft, Nat.shiftLeft_eq, Nat.mul_comm]

/-- The byte of a flag by the condition the flag stands for (10_state R23, decision D30). -/
theorem flagByte_eq_ite {flag : Bool} {p : Prop} [Decidable p] (h : flag = true ↔ p) :
    flagByte flag = if p then 1 else 0 := if_congr h rfl rfl

theorem flagByte_toNat (flag : Bool) : (flagByte flag).toNat = flag.toNat := by
  cases flag with
  | _ => rfl

theorem flagByte_shiftedOutRight_toNat : (flagByte (shiftedOutRight a)).toNat = a.toNat % 2 := by
  rw [flagByte_toNat, shiftedOutRight, BitVec.getLsbD, Nat.toNat_testBit, Nat.pow_zero, Nat.div_one]

theorem flagByte_shiftedOutLeft_toNat : (flagByte (shiftedOutLeft a)).toNat = a.toNat / 128 := by
  rw [flagByte_toNat, shiftedOutLeft, BitVec.getLsbD, Nat.toNat_testBit]
  omega

end Values

/-! ### Results without a flag -/

/-- Settles O24: the result is kk. -/
theorem loadImmediateLoads : Obligations.LoadImmediateLoads := fun _s _x _kk =>
  ⟨_, rfl, State.finish_reg, rfl, onlyChanged_finish⟩

/-- Settles O25: the sum of bytes is the one modulo 256, and VF is in the frame. -/
theorem addImmediateWrapsWithoutFlag : Obligations.AddImmediateWrapsWithoutFlag := fun _s _x _kk =>
  ⟨_, rfl, (congrArg BitVec.toNat State.finish_reg).trans (BitVec.toNat_add _ _), rfl, onlyChanged_finish⟩

/-- Settles O26: each result bit is the copy, the `||`, the `&&` or the `^^` of the operands' bits. -/
theorem copyAndLogicAreBitwise : Obligations.CopyAndLogicAreBitwise := by
  refine fun s x y => ⟨⟨_, rfl, State.finish_reg, rfl, onlyChanged_finish⟩,
    ⟨_, rfl, fun b => ?_, rfl, onlyChanged_finish⟩, ⟨_, rfl, fun b => ?_, rfl, onlyChanged_finish⟩,
    ⟨_, rfl, fun b => ?_, rfl, onlyChanged_finish⟩⟩
  · rw [State.finish_reg, BitVec.getLsbD_or, Bool.or_eq_true]
  · rw [State.finish_reg, BitVec.getLsbD_and, Bool.and_eq_true]
  · rw [State.finish_reg, BitVec.getLsbD_xor, bne_iff_ne, ne_eq, Bool.eq_iff_iff]

/-- Settles O32: the drawn byte is the free value at the old count, and a bit of the mask that is 0 clears it. -/
theorem randomByteIsMasked : Obligations.RandomByteIsMasked := by
  refine fun s x kk => ⟨_, rfl, fun b => ?_, ?_, rfl, Nat.lt_succ_self s.draws,
    (UnchangedBut.refl.countDraw (by simp)).finish (by simp) (by simp)⟩
  · rw [State.finish_reg, BitVec.getLsbD_and, Bool.and_eq_true]
    rfl
  · rintro rfl
    rw [State.finish_reg]
    exact BitVec.and_zero

/-! ### Results with a flag -/

/-- Settles O27: the low 8 bits of a sum that does not wrap at 9, and its bit 8. -/
theorem addSetsCarry : Obligations.AddSetsCarry := fun s x y =>
  ⟨_, rfl, State.finishWithFlag_reg_toNat (sum9_low_toNat _ _),
    State.finishWithFlag_flag.trans (flagByte_eq_ite (carryOut_iff (s.reg x) (s.reg y))), rfl,
    onlyChanged_finishWithFlag⟩

/-- Settles O28: the difference Vx - Vy, and Vx strictly greater. -/
theorem subtractSetsStrictlyGreater : Obligations.SubtractSetsStrictlyGreater := fun s x y =>
  ⟨_, rfl, State.finishWithFlag_reg_toNat (toNat_sub_byte _ _),
    State.finishWithFlag_flag.trans (flagByte_eq_ite (strictlyGreater_iff (s.reg x) (s.reg y))), rfl,
    onlyChanged_finishWithFlag⟩

/-- Settles O30: the difference Vy - Vx, and Vy strictly greater. -/
theorem reverseSubtractSetsStrictlyGreater : Obligations.ReverseSubtractSetsStrictlyGreater := fun s x y =>
  ⟨_, rfl, State.finishWithFlag_reg_toNat (toNat_sub_byte _ _),
    State.finishWithFlag_flag.trans (flagByte_eq_ite (strictlyGreater_iff (s.reg y) (s.reg x))), rfl,
    onlyChanged_finishWithFlag⟩

/-- Settles O29: half of Vx, and the remainder. -/
theorem shiftRightShiftsOutBitZero : Obligations.ShiftRightShiftsOutBitZero := fun _s _x _y =>
  ⟨_, rfl, State.finishWithFlag_reg_toNat (shiftRight_one_toNat _),
    (congrArg BitVec.toNat State.finishWithFlag_flag).trans (flagByte_shiftedOutRight_toNat _), rfl,
    onlyChanged_finishWithFlag⟩

/-- Settles O31: twice Vx modulo 256, and what twice Vx carries out of 8 bits. -/
theorem shiftLeftShiftsOutBitSeven : Obligations.ShiftLeftShiftsOutBitSeven := fun _s _x _y =>
  ⟨_, rfl, State.finishWithFlag_reg_toNat (shiftLeft_one_toNat _),
    (congrArg BitVec.toNat State.finishWithFlag_flag).trans (flagByte_shiftedOutLeft_toNat _), rfl,
    onlyChanged_finishWithFlag⟩

end Sys2Proof.Machine
end

section
/-! PROOFS. The index register and memory (42_index_memory): the three writers of I with their values as numbers, an
access at I inside memory and outside it, the stores and the load, and what a store and a load together recover. -/

namespace Sys2Proof.Machine

/-! ### The index register -/

theorem UnchangedBut.setI {P : Component → Prop} {s t : State} (h : UnchangedBut P s t) (hi : P .i) (w : Word) :
    UnchangedBut P s (t.setI w) :=
  h.trans fun c hc => by
    cases c with
    | i => exact absurd hi hc
    | _ => rfl

/-- A write of I and then PC writes nothing else (42_index_memory R121 to R123). -/
theorem onlyChanged_setI_advance (s : State) (w : Word) : OnlyChanged [.pc, .i] s (s.setI w).advance :=
  (UnchangedBut.refl.setI (by simp) w).jump (by simp) _

theorem zextByte_toNat (b : Byte) : (zextByte b).toNat = b.toNat :=
  BitVec.toNat_setWidth_of_le (by decide)

/-- The address of a glyph fits in I (42_index_memory R123). -/
theorem glyphAddress_toNat (digit : Fin 16) : (glyphAddress digit).toNat = 5 * digit.val :=
  (BitVec.toNat_ofNat _ _).trans (Nat.mod_eq_of_lt (by omega))

/-- Settles O34: the immediate extends to its own value, the sum is the one modulo 65536, and the glyph of the low
nibble is 5 bytes a digit from 0. -/
theorem indexRegisterWrites : Obligations.IndexRegisterWrites := by
  refine fun s x nnn => ⟨⟨_, rfl, zextAddr_toNat nnn, rfl, onlyChanged_setI_advance s _⟩,
    ⟨_, rfl, ?_, rfl, onlyChanged_setI_advance s _⟩, ⟨_, rfl, ?_, rfl, onlyChanged_setI_advance s _⟩⟩
  · simp only [State.advance_eq, State.jump_i, State.setI_i, BitVec.toNat_add, zextByte_toNat]
  · simp only [State.advance_eq, State.jump_i, State.setI_i, glyphAddress_toNat, lowNibble_val]

/-! ### Accesses at I -/

/-- An access at I that leaves memory is the fault, at the lowest address out of range (42_index_memory R120,
60_exceptions R154). -/
theorem State.accessAtI_faults (s : State) (ins : Instr) {count : Nat} (done : State) (hpos : 0 < count)
    (h : 4096 < s.i.toNat + count) : s.accessAtI ins count done =
      .next (faultedWith s .memOutOfBounds (some (encode ins)) (some (faultingAddress s.i))) := by
  rw [State.accessAtI, outOfBounds_eq_faultingAddress hpos h]
  rfl

/-- The k-th byte of a store, read back (20_memory R53). -/
theorem Memory.read_writeBytes_offset {m : Memory} {bytes : List Byte} {a k : Nat} (hwf : Memory.wf m)
    (ha : a + bytes.length ≤ 4096) (hk : k < bytes.length) :
    Memory.read (Memory.writeBytes m a bytes) (a + k) = bytes[k] := by
  rw [Memory.read_writeBytes bytes m a _ ha hwf, dif_pos (by omega)]
  simp only [Nat.add_sub_cancel_left]

/-- A store at I inside memory, and then PC, writes its own bytes and nothing else, whatever MODE is
(42_index_memory R124, R125). -/
theorem unchangedBut_storeBytes {s : State} {bytes : List Byte} (hwf : Memory.wf s.mem)
    (hin : s.i.toNat + bytes.length ≤ 4096) :
    UnchangedBut (fun c => c = .pc ∨ ∃ k < bytes.length, c = .memByte (s.i.toNat + k)) s
      (s.setMem (Memory.writeBytes s.mem s.i.toNat bytes)).advance := by
  refine (UnchangedBut.refl.setMem fun a ha => .inr ?_).jump (.inl rfl) _
  obtain ⟨k, hk, rfl⟩ := Memory.exists_offset_of_read_writeBytes_ne hwf hin ha
  exact ⟨k, hk, rfl⟩

/-! ### The stores -/

/-- The digits as numbers: each fits in its byte (42_index_memory R124). -/
theorem decimalDigits_toNat (b : Byte) :
    (decimalDigits b).map BitVec.toNat = [b.toNat / 100, b.toNat / 10 % 10, b.toNat % 10] := by
  have hb : b.toNat < 256 := b.isLt
  simp only [decimalDigits, List.map_cons, List.map_nil, BitVec.toNat_ofNat, List.cons.injEq, and_true]
  omega

/-- The k-th number among the digits is what MEM[I + k] reads after they are stored at I (42_index_memory R124). -/
theorem Memory.read_stored_digits {m : Memory} {a k : Nat} (b : Byte) (hwf : Memory.wf m) (ha : a + 3 ≤ 4096)
    (hk : k < 3) : (Memory.read (Memory.writeBytes m a (decimalDigits b)) (a + k)).toNat =
      [b.toNat / 100, b.toNat / 10 % 10, b.toNat % 10][k] := by
  rw [Memory.read_writeBytes_offset hwf ha hk]
  exact (List.getElem_map _).symm.trans (List.getElem_of_eq (decimalDigits_toNat b) hk)

/-- Settles O35: up to I = 4093 the three bytes stored are the digits and the frame is theirs, and above it the access
leaves memory. -/
theorem decimalDigitsAreStored : Obligations.DecimalDigitsAreStored := by
  refine fun s x hwf => ⟨fun hi => ?_, fun hi => s.accessAtI_faults _ _ (by decide) (by omega)⟩
  have hin : s.i.toNat + 3 ≤ 4096 := by omega
  refine ⟨_, s.accessAtI_next _ _ _ (.inr hin), Memory.read_stored_digits (k := 0) _ hwf hin (by decide),
    Memory.read_stored_digits (k := 1) _ hwf hin (by decide), Memory.read_stored_digits (k := 2) _ hwf hin (by decide),
    rfl, (unchangedBut_storeBytes (bytes := decimalDigits (s.reg x)) hwf hin).mono ?_⟩
  rintro c (rfl | ⟨k, hk, rfl⟩)
  · simp
  · have hk : k < 3 := hk
    interval_cases k <;> simp

/-- Settles O36: the bytes stored are V0 to Vx, and a byte outside I to I + x is in the frame of the store. -/
theorem registersAreStored : Obligations.RegistersAreStored := by
  intro s x hwf hi
  have hrange : s.i.toNat + (x.val + 1) ≤ 4096 := by omega
  have hin : s.i.toNat + (s.regsUpTo x).length ≤ 4096 := by rwa [State.length_regsUpTo]
  refine ⟨_, s.accessAtI_next _ _ _ (.inr hrange), fun k hk => State.read_stored_regs hwf hrange hk, fun a ha => ?_,
    rfl, rfl, Memory.writeBytes_wf _ _ _ hin hwf⟩
  refine unchangedBut_storeBytes hwf hin (.memByte a) ?_
  rintro (hpc | ⟨k, hk, hka⟩)
  · cases hpc
  · cases hka
    rw [State.length_regsUpTo] at hk
    omega

/-! ### The load -/

/-- Register k after the load is MEM[I + k] up to x and the old V[k] above (42_index_memory R126). -/
theorem State.getElem_regsLoadedUpTo (s : State) (x k : RegIdx) :
    (s.regsLoadedUpTo x)[k.val] = if k ≤ x then Memory.read s.mem (s.i.toNat + k.val) else s.reg k :=
  Vector.getElem_ofFn k.isLt

/-- Settles O37: the new register file by its two cases, and a register that changed is at most x. -/
theorem registersAreLoaded : Obligations.RegistersAreLoaded := by
  refine fun s x hi => ⟨_, s.accessAtI_next _ _ _ (.inr (by omega)),
    fun k hk => (s.getElem_regsLoadedUpTo x k).trans (if_pos hk),
    fun k hk => (s.getElem_regsLoadedUpTo x k).trans (if_neg (not_le.mpr hk)), rfl, ?_⟩
  refine (UnchangedBut.refl.setRegs fun r hr => .inr ⟨r, ?_, rfl⟩).jump (.inl rfl) _
  by_contra hrx
  exact hr ((s.getElem_regsLoadedUpTo x r).trans (if_neg hrx))

/-- Settles O38: the store took no fault, so I to I + x is inside memory, and the load reads (O37) the bytes the store
left there (O36). -/
theorem storeThenLoadRecoversRegisters : Obligations.StoreThenLoadRecoversRegisters := by
  intro s t u w x hwf _ ht hstore hmem hi hload k hk
  obtain ⟨hrange, -⟩ := State.accessAtI_completed (ins := .storeRegs x) hstore ht
  have hrange : s.i.toNat + x.val ≤ 4095 := by omega
  obtain ⟨t', hstore', hstored, -⟩ := registersAreStored s x hwf hrange
  obtain ⟨w', hload', hloaded, -⟩ := registersAreLoaded u x (by rwa [hi])
  cases hstore'.symm.trans hstore
  cases hload'.symm.trans hload
  rw [hloaded k hk, hmem, hi, hstored k hk]

end Sys2Proof.Machine
end

section
/-! PROOFS. The display (43_display): what a sprite, drawn bit by bit and row by row, does to the pixels and to the
collision, and from this CLS, DRW and DRW twice. -/

namespace Sys2Proof.Machine

/-! ### Drawing on a set of pixels -/

/-- From `fc` to `fd` every pixel of the set is inverted and every other kept, and the collision is now set when a pixel
of the set was (43_display R132, R133). -/
structure Draws (pixels : Fin 32 → Fin 64 → Prop) (fc fd : Framebuffer × Bool) : Prop where
  inverted : ∀ r c, pixels r c → Framebuffer.get fd.1 r c = !Framebuffer.get fc.1 r c
  kept : ∀ r c, ¬ pixels r c → Framebuffer.get fd.1 r c = Framebuffer.get fc.1 r c
  collision : fd.2 = true ↔ fc.2 = true ∨ ∃ r c, pixels r c ∧ Framebuffer.get fc.1 r c = true

section Draws

variable {P Q : Fin 32 → Fin 64 → Prop} {fc fd fe : Framebuffer × Bool}

theorem Draws.nothing (hP : ∀ r c, ¬ P r c) : Draws P fc fc where
  inverted r c h := absurd h (hP r c)
  kept _ _ _ := rfl
  collision := by simp [hP]

theorem Draws.congr (h : Draws P fc fd) (hPQ : ∀ r c, P r c ↔ Q r c) : Draws Q fc fd := by
  obtain rfl : P = Q := funext fun r => funext fun c => propext (hPQ r c)
  exact h

/-- Two sets without a common pixel, drawn one after the other, are drawn as one: the second finds its pixels as they
were before the first. -/
theorem Draws.trans (hP : Draws P fc fd) (hQ : Draws Q fd fe) (hdisjoint : ∀ r c, P r c → ¬ Q r c) :
    Draws (fun r c => P r c ∨ Q r c) fc fe where
  inverted r c h := by
    obtain h | h := h
    · rw [hQ.kept r c (hdisjoint r c h), hP.inverted r c h]
    · rw [hQ.inverted r c h, hP.kept r c fun hp => hdisjoint r c hp h]
  kept r c h := by
    obtain ⟨hp, hq⟩ := not_or.mp h
    rw [hQ.kept r c hq, hP.kept r c hp]
  collision := by
    have hold : ∀ r c, Q r c ∧ Framebuffer.get fd.1 r c = true ↔ Q r c ∧ Framebuffer.get fc.1 r c = true :=
      fun r c => and_congr_right fun hq => by rw [hP.kept r c fun hp => hdisjoint r c hp hq]
    simp only [hQ.collision, hP.collision, hold, or_and_right, exists_or, or_assoc]

/-- With no collision before, there is one now when a pixel of the set was set (43_display R133). -/
theorem Draws.collision_iff {fb fb' : Framebuffer} {collision : Bool} (h : Draws P (fb, false) (fb', collision)) :
    collision = true ↔ ∃ r c, P r c ∧ Framebuffer.get fb r c = true := by
  simpa using h.collision

section Twice

variable {fb fb₁ fb₂ : Framebuffer} {old collision collision' : Bool}
  (h : Draws P (fb, old) (fb₁, collision)) (h' : Draws P (fb₁, false) (fb₂, collision'))
include h h'

/-- The same pixels inverted twice are as before (43_display R135). -/
theorem Draws.twice_get (r : Fin 32) (c : Fin 64) : Framebuffer.get fb₂ r c = Framebuffer.get fb r c := by
  by_cases hP : P r c
  · have h₁ : Framebuffer.get fb₁ r c = !Framebuffer.get fb r c := h.inverted r c hP
    have h₂ : Framebuffer.get fb₂ r c = !Framebuffer.get fb₁ r c := h'.inverted r c hP
    rw [h₂, h₁, Bool.not_not]
  · exact (h'.kept r c hP).trans (h.kept r c hP)

/-- The second drawing finds each pixel of the set inverted, so it collides where one was unset (43_display R135). -/
theorem Draws.twice_collision_iff :
    collision' = true ↔ ∃ r c, P r c ∧ Framebuffer.get fb r c = false := by
  refine h'.collision_iff.trans (exists_congr fun r => exists_congr fun c => and_congr_right fun hP => ?_)
  have h₁ : Framebuffer.get fb₁ r c = !Framebuffer.get fb r c := h.inverted r c hP
  rw [h₁, Bool.not_eq_true']

end Twice

end Draws

/-! ### The sprite, bit by bit and row by row -/

/-- Eight columns, wrapped, are eight different ones (43_display R132, GK15). -/
theorem pixelCol_ne {cx col col' : Nat} (h : col < col') (h' : col' < 8) : pixelCol cx col ≠ pixelCol cx col' := by
  simp only [pixelCol, ne_eq, Fin.ext_iff, Fin.val_ofNat]
  omega

/-- As many rows as the screen has, wrapped, are different ones (43_display R132, GK15). -/
theorem pixelRow_ne {cy row row' : Nat} (h : row < row') (h' : row' < row + 32) :
    pixelRow cy row ≠ pixelRow cy row' := by
  simp only [pixelRow, ne_eq, Fin.ext_iff, Fin.val_ofNat]
  omega

/-- A 1 bit draws on its one pixel and a 0 bit on none. -/
theorem blitBit_draws (cx cy row : Nat) (bits : Byte) (fc : Framebuffer × Bool) (col : Nat) :
    Draws (fun r c => spriteBit bits col = true ∧ r = pixelRow cy row ∧ c = pixelCol cx col) fc
      (blitBit cx cy row bits fc col) where
  inverted r c h := by simp [blitBit_get, h]
  kept r c h := by
    have hmiss : (spriteBit bits col && decide (r = pixelRow cy row ∧ c = pixelCol cx col)) = false := by simpa using h
    rw [blitBit_get, hmiss, Bool.xor_false]
  collision := by simp [blitBit_collision]

/-- The first `k` bits of a row draw on the pixels of the 1 bits among them. -/
theorem foldl_blitBit_draws (cx cy row : Nat) (bits : Byte) (fc : Framebuffer × Bool) {k : Nat} (hk : k ≤ 8) :
    Draws (fun r c => ∃ col < k, spriteBit bits col = true ∧ r = pixelRow cy row ∧ c = pixelCol cx col) fc
      ((List.range k).foldl (blitBit cx cy row bits) fc) := by
  induction k with
  | zero => exact .nothing (by simp)
  | succ k ih =>
    rw [List.range_succ, List.foldl_append]
    refine ((ih (by omega)).trans (blitBit_draws ..) ?_).congr fun r c => Nat.exists_lt_succ_right.symm
    rintro r c ⟨col, hcol, -, -, hc⟩ ⟨-, -, hc'⟩
    exact pixelCol_ne hcol hk (hc.symm.trans hc')

theorem blitRow_draws (cx cy row : Nat) (bits : Byte) (fc : Framebuffer × Bool) :
    Draws (RowHits cx cy row bits) fc (blitRow cx cy row bits fc) :=
  foldl_blitBit_draws cx cy row bits fc le_rfl

/-- At most 32 rows read from `a`, numbered from `row`, draw on the pixels that one of them hits. -/
theorem blitRows_draws (cx cy : Nat) (m : Memory) {n : Nat} (hn : n ≤ 32) (a row : Nat) (fc : Framebuffer × Bool) :
    Draws (fun r c => ∃ k < n, RowHits cx cy (row + k) (Memory.read m (a + k)) r c) fc
      (blitRows cx cy row (Memory.readBytes m a n) fc) := by
  induction n generalizing a row fc with
  | zero => exact .nothing (by simp)
  | succ n ih =>
    refine ((blitRow_draws cx cy row (Memory.read m a) fc).trans (ih (by omega) (a + 1) (row + 1) _) ?_).congr
      fun r c => ?_
    · rintro r c ⟨-, -, -, hr, -⟩ ⟨k, hk, -, -, -, hr', -⟩
      exact pixelRow_ne (by omega) (by omega) (hr.symm.trans hr')
    · simp only [Nat.exists_lt_succ_left, Nat.add_zero, Nat.add_assoc, Nat.add_comm 1]

/-- A pixel under the sprite is one that a row of it hits (43_display R132). -/
theorem spriteCovers_iff (s : State) (x y : RegIdx) (n : Fin 16) (r : Fin 32) (c : Fin 64) :
    SpriteCovers s x y n r c ↔ ∃ k < n.val,
      RowHits (s.reg x).toNat (s.reg y).toNat (0 + k) (Memory.read s.mem (s.i.toNat + k)) r c := by
  simp only [SpriteCovers, RowHits, spriteBit, pixelRow, pixelCol, Fin.ext_iff, Fin.val_ofNat, Nat.zero_add,
    exists_and_left]

/-- The sprite at I, drawn at (Vx, Vy), draws on the pixels under it (43_display R132; GK15). -/
theorem blit_draws (s : State) (x y : RegIdx) (n : Fin 16) :
    Draws (SpriteCovers s x y n) (s.fb, false) (blit s.fb (s.reg x) (s.reg y) (s.spriteRows n)) :=
  (blitRows_draws _ _ s.mem (by omega) s.i.toNat 0 _).congr fun r c => (spriteCovers_iff s x y n r c).symm

/-! ### CLS and DRW -/

/-- Settles O39: the cleared framebuffer is 0 everywhere, and CLS writes no more than it and PC. -/
theorem clearUnsetsEveryPixel : Obligations.ClearUnsetsEveryPixel := fun _s =>
  ⟨_, rfl, Framebuffer.get_clear, rfl,
    (UnchangedBut.refl.setFb fun r c _ => .inr ⟨r, c, rfl⟩).jump (.inl rfl) _⟩

/-- DRW with its rows inside memory: the sprite is drawn, and the collision goes to VF (43_display R132, R133). -/
theorem exec_drw (s : State) (x y : RegIdx) (n : Fin 16) (h : n = 0 ∨ s.i.toNat + n.val - 1 ≤ 4095) :
    ∃ fb collision, exec (.drw x y n) s = .next ((s.setFb fb).setFlag collision).advance ∧
      Draws (SpriteCovers s x y n) (s.fb, false) (fb, collision) :=
  ⟨_, _, s.accessAtI_next _ _ _ (by omega), blit_draws s x y n⟩

/-- VF after DRW is 1 exactly when the collision is set (10_state R23). -/
theorem flag_eq_one_iff (s : State) (fb : Framebuffer) (collision : Bool) :
    ((s.setFb fb).setFlag collision).advance.reg VF = 1 ↔ collision = true := by simp

/-- Settles O40: the pixels are those of `Draws`, and DRW writes no more than the framebuffer, VF and PC. -/
theorem drawInvertsExactlyTheCoveredPixels : Obligations.DrawInvertsExactlyTheCoveredPixels := by
  intro s x y n hrange
  obtain ⟨fb, collision, hexec, hdraws⟩ := exec_drw s x y n hrange
  exact ⟨_, hexec, hdraws.inverted, hdraws.kept, rfl,
    ((UnchangedBut.refl.setFb fun r c _ => .inr (.inr ⟨r, c, rfl⟩)).setReg (.inr (.inl rfl)) _).jump (.inl rfl) _⟩

/-- Settles O41: VF is the byte of the collision. -/
theorem collisionIsASetPixelUnderTheSprite : Obligations.CollisionIsASetPixelUnderTheSprite := by
  intro s x y n hrange
  obtain ⟨fb, collision, hexec, hdraws⟩ := exec_drw s x y n hrange
  exact ⟨_, hexec, by simpa using flagByte_eq_or collision,
    (flag_eq_one_iff s fb collision).trans hdraws.collision_iff⟩

/-- DRW leaves the footprint of its own sprite where Vx and Vy are not VF (43_display R135). -/
theorem spriteCovers_after_drw {x y : RegIdx} (hx : x ≠ VF) (hy : y ≠ VF) (s : State) (n : Fin 16) (fb : Framebuffer)
    (collision : Bool) :
    SpriteCovers ((s.setFb fb).setFlag collision).advance x y n = SpriteCovers s x y n := by
  unfold SpriteCovers
  simp [hx, hy]

/-- Settles O42: the second sprite has the footprint of the first, so the same pixels are drawn twice. -/
theorem drawingTwiceRestoresTheFramebuffer : Obligations.DrawingTwiceRestoresTheFramebuffer := by
  intro s x y n hx hy hrange
  obtain ⟨fb, collision, hexec, hdraws⟩ := exec_drw s x y n hrange
  obtain ⟨fb', collision', hexec', hdraws'⟩ := exec_drw ((s.setFb fb).setFlag collision).advance x y n hrange
  rw [spriteCovers_after_drw hx hy] at hdraws'
  exact ⟨_, hexec, _, hexec', hdraws.twice_get hdraws', (flag_eq_one_iff s fb collision).trans hdraws.collision_iff,
    (flag_eq_one_iff _ fb' collision').trans (hdraws.twice_collision_iff hdraws')⟩

end Sys2Proof.Machine
end

section
/-! PROOFS. The timers and the keys (44_timers_keys): the moves of a counter, the start of a wait, and the poll that
goes on with it or ends it. -/

namespace Sys2Proof.Machine

/-! ### What an update leaves unchanged -/

section Frames

variable {P : Component → Prop} {s t : State}

theorem UnchangedBut.setDt (h : UnchangedBut P s t) (hdt : P .dt) (b : Byte) : UnchangedBut P s (t.setDt b) :=
  h.trans fun c hc => by
    cases c with
    | dt => exact absurd hdt hc
    | _ => rfl

theorem UnchangedBut.setSr (h : UnchangedBut P s t) (hsr : P .sr) (b : Byte) : UnchangedBut P s (t.setSr b) :=
  h.trans fun c hc => by
    cases c with
    | sr => exact absurd hsr hc
    | _ => rfl

/-- The start and the end of a wait write MODE, WAITX and KP (44_timers_keys R145, R146). -/
theorem UnchangedBut.setWait (h : UnchangedBut P s t) (hmode : P .mode) (hwaitx : P .waitx) (hkp : P .kp)
    (mode : Mode) (x : RegIdx) : UnchangedBut P s { t with mode := mode, waitx := x, kp := none } :=
  h.trans fun c hc => by
    cases c with
    | mode => exact absurd hmode hc
    | waitx => exact absurd hwaitx hc
    | kp => exact absurd hkp hc
    | _ => rfl

end Frames

/-! ### The timers -/

/-- SOUND is on exactly while SR is not 0 (60_exceptions R169). -/
theorem State.sound_iff (s : State) : s.sound = true ↔ 0 < s.sr.toNat := decide_eq_true_iff

/-- Settles O43: each move is one write of the counter or of Vx, and SOUND follows the SR that was written. -/
theorem timerMovesCopyTheWholeByte : Obligations.TimerMovesCopyTheWholeByte := fun s x =>
  ⟨⟨_, rfl, State.finish_reg, rfl, onlyChanged_finish⟩,
    ⟨_, rfl, rfl, rfl, (UnchangedBut.refl.setDt (by simp) _).jump (by simp) _⟩,
    ⟨_, rfl, rfl, (s.setSr (s.reg x)).advance.sound_iff, rfl, (UnchangedBut.refl.setSr (by simp) _).jump (by simp) _⟩⟩

/-! ### The wait for a key -/

/-- A waiting engine with no fault held is BLOCKED (60_exceptions R173). -/
theorem State.status_of_awaitKey {s : State} (hfault : s.fault = none) (hm : s.mode = .awaitKey) :
    s.status = .blocked := by
  simp [State.status, hfault, hm]

/-- Settles O44: the step is the start of the wait and nothing else. -/
theorem waitForKeySuspends : Obligations.WaitForKeySuspends := fun _s x =>
  ⟨_, rfl, rfl, rfl, rfl, rfl, fun hfault => State.status_of_awaitKey hfault rfl,
    UnchangedBut.refl.setWait (by simp) (by simp) (by simp) .awaitKey x⟩

/-- A step of a waiting engine is a poll (30_encoding R74). -/
theorem step_of_awaitKey {s : State} (hm : s.mode = .awaitKey) : step s = .next s.poll := by
  simp [step, hm]

theorem keyByte_toNat (k : KeyCode) : (keyByte k).toNat = k.val :=
  (BitVec.toNat_ofNat _ _).trans (Nat.mod_eq_of_lt (by omega))

/-- Settles O45: the step is a poll, and each of its two cases is one of the statement's. -/
theorem pollDeliversTheCapturedKey : Obligations.PollDeliversTheCapturedKey := by
  intro s hm
  rw [step_of_awaitKey hm]
  obtain ⟨hkp, hpoll⟩ | ⟨k, hkp, hpoll⟩ := s.poll_cases
  · simp [hkp, hpoll]
  · refine ⟨by simp [hkp], fun k' hk' => ?_⟩
    obtain rfl : k = k' := Option.some.inj (hkp.symm.trans hk')
    exact ⟨_, congrArg _ hpoll, by simp [keyByte_toNat], rfl, rfl, rfl, rfl,
      ((UnchangedBut.refl.setReg (by simp) _).jump (by simp) _).setWait (by simp) (by simp) (by simp) .running 0⟩

end Sys2Proof.Machine
end

section
/-! PROOFS. The exceptions and the events (60_exceptions): what a step can be, the faults of the instructions and their
records, the frozen machine, the tick and the key event, the countdown of the timers, SOUND and STATUS, and the wait for
a key along a run. -/

namespace Sys2Proof.Machine

/-! ### The step by MODE -/

/-- What a step can be, by MODE, the fetch and the decoder (30_encoding R74, 60_exceptions R156). -/
theorem step_cases {s t : State} (h : step s = .next t) :
    (s.mode = .faulted ∧ t = s) ∨ (s.mode = .awaitKey ∧ t = s.poll) ∨
    (s.mode = .running ∧ ∃ kind opcode addr, t = s.raise kind opcode addr) ∨
    Executes s (fun ins => exec ins s = .next t) := by
  cases hm : s.mode with
  | faulted =>
    simp only [step, hm] at h
    cases h
    exact .inl ⟨rfl, rfl⟩
  | awaitKey =>
    cases (step_of_awaitKey hm).symm.trans h
    exact .inr (.inl ⟨rfl, rfl⟩)
  | running =>
    obtain ⟨-, hfetch⟩ | ⟨-, addr, -, hfetch⟩ := s.fetch_cases
    · rw [step_running s _ hm hfetch] at h
      split at h
      · cases h
        exact .inr (.inr (.inl ⟨rfl, _, _, _, rfl⟩))
      · next ins hdecode => exact .inr (.inr (.inr ⟨hm, _, ins, hfetch, hdecode, h⟩))
    · cases (step_of_fetch_error hm hfetch).symm.trans h
      exact .inr (.inr (.inl ⟨rfl, _, _, _, rfl⟩))

theorem Executes.imp {s : State} {p q : Instr → Prop} (h : Executes s p) (hpq : ∀ ins, p ins → q ins) :
    Executes s q := by
  obtain ⟨hm, op, ins, hfetch, hdecode, hp⟩ := h
  exact ⟨hm, op, ins, hfetch, hdecode, hpq ins hp⟩

/-! ### The faults of the instructions -/

/-- Settles O14: SP = 16 is the first case of CALL. -/
theorem callAtCapacityOverflows : Obligations.CallAtCapacityOverflows := by
  intro s nnn h
  obtain ⟨-, hcall⟩ | ⟨hlt, -⟩ | ⟨hgt, -⟩ := execCall_cases s nnn
  · exact hcall
  · simp [h] at hlt
  · simp [h] at hgt

/-- Settles O15: SP = 0 is the first case of RET, whose word is 0x00EE. -/
theorem returnWhenEmptyUnderflows : Obligations.ReturnWhenEmptyUnderflows := by
  intro s h
  obtain ⟨-, hret⟩ | ⟨hne, -⟩ | ⟨hgt, -⟩ := execRet_cases s
  · exact hret
  · exact absurd h hne
  · simp [h] at hgt

/-- Settles O16: each of the four is one access of its bytes at I, and the others access none. -/
theorem memoryRangeFaults : Obligations.MemoryRangeFaults := by
  intro s ins hpos h
  have hrange : 4096 < s.i.toNat + bytesAtI ins := by omega
  cases ins with
  | ldB | storeRegs | loadRegs | drw => exact s.accessAtI_faults _ _ hpos hrange
  | _ => cases hpos

/-- An access at I that took a fault, where its completion is not FAULTED, left memory (60_exceptions R154). -/
theorem State.accessAtI_faulted {s t done : State} {ins : Instr} {count : Nat}
    (h : s.accessAtI ins count done = .next t) (hdone : done.mode ≠ .faulted) (ht : t.mode = .faulted) :
    0 < count ∧ 4095 < s.i.toNat + count - 1 ∧
      t = faultedWith s .memOutOfBounds (some (encode ins)) (some (faultingAddress s.i)) := by
  by_cases hrange : count = 0 ∨ s.i.toNat + count ≤ 4096
  · cases (s.accessAtI_next ins count done hrange).symm.trans h
    exact absurd ht hdone
  · have hpos : 0 < count := by omega
    cases (s.accessAtI_faults ins done hpos (by omega)).symm.trans h
    exact ⟨hpos, by omega, rfl⟩

/-- An instruction that takes a fault is CALL at SP = 16, RET at SP = 0 or an access that leaves memory, and its next
state is fault entry (60_exceptions R150, R156, R157). -/
theorem exec_faulted_cases {ins : Instr} {s t : State} (hs : s.mode ≠ .faulted) (h : exec ins s = .next t)
    (ht : t.mode = .faulted) :
    (∃ nnn, ins = .call nnn ∧ s.sp = 16 ∧ t = faultedWith s .stackOverflow (some (encode ins)) none) ∨
    (ins = .ret ∧ s.sp = 0 ∧ t = faultedWith s .stackUnderflow (some (encode ins)) none) ∨
    (0 < bytesAtI ins ∧ 4095 < s.i.toNat + bytesAtI ins - 1 ∧
      t = faultedWith s .memOutOfBounds (some (encode ins)) (some (faultingAddress s.i))) := by
  have hfault : mayFault ins = true := by
    obtain ⟨-, -, -, -, -, -, -, -, -, -, hmode, -⟩ := eachPieceOfStateHasItsOwnWriters ins s t h
    obtain ⟨hwait, -⟩ | ⟨-, hfault⟩ := hmode (by rw [ht]; exact hs.symm)
    · cases ht.symm.trans hwait
    · exact hfault
  obtain rfl | ⟨nnn, rfl⟩ | ⟨x, rfl⟩ | ⟨x, rfl⟩ | ⟨x, rfl⟩ | ⟨x, y, n, rfl⟩ := eq_of_mayFault hfault
  · obtain ⟨hsp, hret⟩ | ⟨-, -, _, hret⟩ | ⟨-, hret⟩ := execRet_cases s
    · cases hret.symm.trans h
      exact .inr (.inl ⟨rfl, hsp, rfl⟩)
    · cases hret.symm.trans h
      exact absurd ht hs
    · cases hret.symm.trans h
  · obtain ⟨hsp, hcall⟩ | ⟨_, hcall⟩ | ⟨-, hcall⟩ := execCall_cases s nnn
    · cases hcall.symm.trans h
      exact .inl ⟨nnn, rfl, hsp, rfl⟩
    · cases hcall.symm.trans h
      exact absurd ht hs
    · cases hcall.symm.trans h
  all_goals exact .inr (.inr (State.accessAtI_faulted h hs ht))

/-- Settles O13: each fault of `exec_faulted_cases` with its record. -/
theorem eachInstructionRaisesOnlyItsOwnFault : Obligations.EachInstructionRaisesOnlyItsOwnFault := by
  intro ins s t hs h ht
  obtain ⟨nnn, hins, hsp, rfl⟩ | ⟨hins, hsp, rfl⟩ | ⟨hpos, hrange, rfl⟩ := exec_faulted_cases hs h ht
  · exact .inl ⟨nnn, hins, hsp, rfl⟩
  · exact .inr (.inl ⟨hins, hsp, rfl⟩)
  · exact .inr (.inr ⟨hpos, hrange, rfl⟩)

/-- Settles O12: each fault of `exec_faulted_cases` is fault entry with the instruction's own word. -/
theorem faultEntryIsPrecise : Obligations.FaultEntryIsPrecise := by
  intro ins s t hs h ht
  obtain ⟨-, -, -, rfl⟩ | ⟨-, -, rfl⟩ | ⟨-, -, rfl⟩ := exec_faulted_cases hs h ht
  all_goals exact ⟨_, _, rfl⟩

/-- An instruction records no UnknownOpcode: a record that is new belongs to a fault it took (60_exceptions R151). -/
theorem exec_fault_kind_ne_unknownOpcode {ins : Instr} {s t : State} {record : FaultRecord} (hs : s.mode ≠ .faulted)
    (hnone : s.fault = none) (h : exec ins s = .next t) (hrecord : t.fault = some record) :
    record.kind ≠ .unknownOpcode := by
  obtain ⟨-, -, -, -, -, -, -, -, -, -, -, hfault, -⟩ := eachPieceOfStateHasItsOwnWriters ins s t h
  obtain ⟨ht, -⟩ := hfault (by simp [hrecord, hnone])
  obtain ⟨-, -, -, hown⟩ | ⟨-, -, hown⟩ | ⟨-, -, hown⟩ := eachInstructionRaisesOnlyItsOwnFault ins s t hs h ht
  all_goals
    cases hown.symm.trans hrecord
    exact FaultKind.noConfusion

/-- Settles O9: the decoder rejects exactly the words the map rejects (O4), and a word it accepts runs as an
instruction. -/
theorem illegalWordRaisesUnknownOpcode : Obligations.IllegalWordRaisesUnknownOpcode := by
  intro s op hm hfetch
  obtain ⟨haccepts, hrejects⟩ := decodeAcceptsExactlyMappedWords op
  rw [step_running s op hm hfetch]
  refine ⟨fun hwf => by rw [hrejects hwf, State.raise_eq_faultedWith], fun hwf hnone t record hstep => ?_⟩
  obtain ⟨ins, hdecode⟩ := haccepts hwf
  rw [hdecode] at hstep
  exact exec_fault_kind_ne_unknownOpcode (by simp [hm]) hnone hstep

/-! ### The frozen machine -/

theorem State.tick_of_faulted {s : State} (hm : s.mode = .faulted) : s.tick = s := by
  simp [State.tick, hm]

theorem State.keyEvent_of_faulted {s : State} (hm : s.mode = .faulted) (code : KeyCode) (pressed : Bool) :
    s.keyEvent code pressed = s := by
  simp [State.keyEvent, hm]

/-- In FAULTED no event but a reset changes anything (60_exceptions R159, decision D18). -/
theorem applyEvent_of_faulted {s : State} (hm : s.mode = .faulted) {e : Event} (he : ∀ program, e ≠ .reset program) :
    applyEvent e s = .next s := by
  cases e with
  | step => simp [applyEvent, step, hm]
  | tick => rw [applyEvent, State.tick_of_faulted hm]
  | key code pressed => rw [applyEvent, State.keyEvent_of_faulted hm]
  | reset program => exact absurd rfl (he program)

/-- Settles O10: by induction on the events, each of which answers the same state; a reset answers a running one. -/
theorem faultedMachineIsFrozen : Obligations.FaultedMachineIsFrozen := by
  refine fun s hm => ⟨fun events hevents => ?_, fun program => ⟨_, rfl, rfl, rfl⟩⟩
  induction events with
  | nil => rfl
  | cons e rest ih =>
    rw [runEvents, applyEvent_of_faulted hm (hevents e List.mem_cons_self)]
    exact ih fun e' he' => hevents e' (List.mem_cons_of_mem e he')

/-! ### The tick -/

/-- A timer after a tick: one less, and 0 stays 0 (60_exceptions R166). -/
def countedDown (b : Byte) : Byte := if b = 0 then 0 else b - 1

theorem countedDown_toNat (b : Byte) : (countedDown b).toNat = b.toNat - 1 := by
  unfold countedDown
  split
  · next h => simp [h]
  · next h => bv_omega

/-- Outside FAULTED the tick counts each timer down by its own test (60_exceptions R166). -/
theorem State.tick_of_not_faulted {s : State} (hm : s.mode ≠ .faulted) :
    s.tick = (s.setDt (countedDown s.dt)).setSr (countedDown s.sr) := by
  obtain ⟨hfaulted, -⟩ | ⟨-, htick⟩ := s.tick_cases
  · exact absurd hfaulted hm
  · exact htick

@[simp] theorem State.tick_mode (s : State) : s.tick.mode = s.mode := by
  obtain ⟨-, htick⟩ | ⟨-, htick⟩ := s.tick_cases <;> rw [htick]

@[simp] theorem State.tick_fault (s : State) : s.tick.fault = s.fault := by
  obtain ⟨-, htick⟩ | ⟨-, htick⟩ := s.tick_cases <;> rw [htick]

theorem State.tick_dt_toNat {s : State} (hm : s.mode ≠ .faulted) : s.tick.dt.toNat = s.dt.toNat - 1 := by
  rw [State.tick_of_not_faulted hm]
  exact countedDown_toNat s.dt

theorem State.tick_sr_toNat {s : State} (hm : s.mode ≠ .faulted) : s.tick.sr.toNat = s.sr.toNat - 1 := by
  rw [State.tick_of_not_faulted hm]
  exact countedDown_toNat s.sr

/-- Settles O47: outside FAULTED the tick is one write of each timer, in FAULTED it is nothing. -/
theorem tickDecrementsNonzeroTimers : Obligations.TickDecrementsNonzeroTimers := by
  refine fun s => ⟨fun hm => ⟨State.tick_dt_toNat hm, State.tick_sr_toNat hm, ?_⟩, State.tick_of_faulted⟩
  rw [State.tick_of_not_faulted hm]
  exact (UnchangedBut.refl.setDt (by simp) _).setSr (by simp) _

/-! ### The key event -/

/-- Outside FAULTED the key event writes KP, by the capture, and one flag (60_exceptions R170). -/
theorem State.keyEvent_of_not_faulted {s : State} (hm : s.mode ≠ .faulted) (code : KeyCode) (pressed : Bool) :
    s.keyEvent code pressed = { s with kp := s.capturedBy code pressed, key := s.key.set code.val pressed } := by
  obtain ⟨hfaulted, -⟩ | ⟨-, hkey⟩ := s.keyEvent_cases code pressed
  · exact absurd hfaulted hm
  · exact hkey

/-- The key event leaves every piece of state but KP and the latch. -/
theorem State.keyEvent_other (s : State) (code : KeyCode) (pressed : Bool) :
    (s.keyEvent code pressed).mode = s.mode ∧ (s.keyEvent code pressed).fault = s.fault ∧
    (s.keyEvent code pressed).dt = s.dt ∧ (s.keyEvent code pressed).sr = s.sr := by
  obtain ⟨-, hkey⟩ | ⟨-, hkey⟩ := s.keyEvent_cases code pressed <;> simp [hkey]

theorem UnchangedBut.setKey {P : Component → Prop} {s t : State} (h : UnchangedBut P s t) (hkp : P .kp)
    {code : KeyCode} (hcode : P (.keyFlag code)) (kp : Option KeyCode) (pressed : Bool) :
    UnchangedBut P s { t with kp := kp, key := t.key.set code.val pressed } :=
  h.trans fun c hc => by
    cases c with
    | kp => exact absurd hkp hc
    | keyFlag k =>
      have hk : code.val ≠ k.val := fun hk => hc (Fin.ext hk ▸ hcode)
      exact Vector.getElem_set_ne code.isLt k.isLt hk
    | _ => rfl

/-- Settles O49: outside FAULTED the key event is one write of the flag and of KP, which takes what the capture says; in
FAULTED it is nothing. -/
theorem keyEventWritesTheLatch : Obligations.KeyEventWritesTheLatch := by
  refine fun s code pressed => ⟨fun hm => ?_, fun hm => State.keyEvent_of_faulted hm code pressed⟩
  rw [State.keyEvent_of_not_faulted hm]
  exact ⟨Vector.getElem_set_self _, rfl, UnchangedBut.refl.setKey (by simp) (by simp) _ _⟩

/-! ### The countdown of the timers -/

theorem State.poll_timers (s : State) : s.poll.dt = s.dt ∧ s.poll.sr = s.sr := by
  obtain ⟨-, hpoll⟩ | ⟨k, -, hpoll⟩ := s.poll_cases <;> simp [hpoll]

/-- Outside the tick no event changes a timer but a reset, which clears it, and a step that runs an instruction. -/
theorem event_timers {e : Event} {s t : State} (he : e ≠ .tick) (h : applyEvent e s = .next t) :
    (t.dt = s.dt ∧ t.sr = s.sr) ∨ ((∃ program, e = .reset program) ∧ t.dt = 0 ∧ t.sr = 0) ∨
    (e = .step ∧ Executes s (fun ins => exec ins s = .next t)) := by
  cases e with
  | step =>
    obtain ⟨-, rfl⟩ | ⟨-, rfl⟩ | ⟨-, kind, opcode, addr, rfl⟩ | hexec := step_cases h
    · exact .inl ⟨rfl, rfl⟩
    · exact .inl s.poll_timers
    · exact .inl ⟨rfl, rfl⟩
    · exact .inr (.inr ⟨rfl, hexec⟩)
  | tick => exact absurd rfl he
  | key code pressed =>
    cases h
    obtain ⟨-, -, htimers⟩ := s.keyEvent_other code pressed
    exact .inl htimers
  | reset program =>
    cases h
    exact .inr (.inl ⟨⟨program, rfl⟩, rfl, rfl⟩)

/-- Of the instructions only LD DT, Vx writes DT (60_exceptions R168). -/
theorem eq_ldDtVx_of_dt_ne {ins : Instr} {s t : State} (h : exec ins s = .next t) (hdt : t.dt ≠ s.dt) :
    ∃ x, ins = .ldDtVx x := by
  obtain ⟨-, -, -, -, hwriter, -⟩ := eachPieceOfStateHasItsOwnWriters ins s t h
  exact hwriter hdt

/-- Of the instructions only LD ST, Vx writes SR (60_exceptions R168). -/
theorem eq_ldStVx_of_sr_ne {ins : Instr} {s t : State} (h : exec ins s = .next t) (hsr : t.sr ≠ s.sr) :
    ∃ x, ins = .ldStVx x := by
  obtain ⟨-, -, -, -, -, hwriter, -⟩ := eachPieceOfStateHasItsOwnWriters ins s t h
  exact hwriter hsr

/-- The counter falls by one at a tick, to 0 and no further, and no other event changes it but a reset, which clears it,
and a step that runs an instruction that writes it (60_exceptions R166, R168). -/
structure CountsDown (timer : State → Byte) (writes : Instr → Prop) : Prop where
  tick : ∀ {s : State}, s.mode ≠ .faulted → (timer s.tick).toNat = (timer s).toNat - 1
  other : ∀ {e : Event} {s t : State}, e ≠ .tick → applyEvent e s = .next t → timer t ≠ timer s →
    ((∃ program, e = .reset program) ∧ timer t = 0) ∨ (e = .step ∧ Executes s writes)

theorem dt_countsDown : CountsDown State.dt (fun ins => ∃ x, ins = .ldDtVx x) where
  tick := State.tick_dt_toNat
  other he h hne := by
    obtain ⟨hdt, -⟩ | ⟨hreset, hdt, -⟩ | ⟨hstep, hexec⟩ := event_timers he h
    · exact absurd hdt hne
    · exact .inl ⟨hreset, hdt⟩
    · exact .inr ⟨hstep, hexec.imp fun _ins hins => eq_ldDtVx_of_dt_ne hins hne⟩

theorem sr_countsDown : CountsDown State.sr (fun ins => ∃ x, ins = .ldStVx x) where
  tick := State.tick_sr_toNat
  other he h hne := by
    obtain ⟨-, hsr⟩ | ⟨hreset, -, hsr⟩ | ⟨hstep, hexec⟩ := event_timers he h
    · exact absurd hsr hne
    · exact .inl ⟨hreset, hsr⟩
    · exact .inr ⟨hstep, hexec.imp fun _ins hins => eq_ldStVx_of_sr_ne hins hne⟩

theorem IsRun.succ_of_tick {schedule : Schedule} {trace : Nat → State} (h : IsRun schedule trace) {n : Nat}
    (htick : schedule n = .tick) : trace (n + 1) = (trace n).tick := by
  have hevent := h n
  rw [htick] at hevent
  exact (Host.Outcome.next.inj hevent).symm

/-- Where ticks recur, a counter that is never 0, not frozen and not rewritten from moment m on never rises, so it would
come to rest, and the next tick lowers it still (70_reset_and_hazards R198, decision D27). -/
theorem CountsDown.reaches_zero {timer : State → Byte} {writes : Instr → Prop} (htimer : CountsDown timer writes)
    {schedule : Schedule} {trace : Nat → State} (hrun : IsRun schedule trace) (hticks : Recurs .tick schedule)
    (m : Nat) :
    ∃ n, m ≤ n ∧ (timer (trace n) = 0 ∨ (trace n).mode = .faulted ∨
      (schedule n = .step ∧ Executes (trace n) writes)) := by
  by_contra! hnever
  have hticked {n : Nat} (hn : m ≤ n) (htick : schedule n = .tick) :
      (timer (trace (n + 1))).toNat = (timer (trace n)).toNat - 1 := by
    obtain ⟨-, hmode, -⟩ := hnever n hn
    rw [hrun.succ_of_tick htick, htimer.tick hmode]
  have hkept {n : Nat} (hn : m ≤ n) (htick : schedule n ≠ .tick) : timer (trace (n + 1)) = timer (trace n) := by
    by_contra hne
    obtain ⟨-, -, hwrites⟩ := hnever n hn
    obtain ⟨hnonzero, -⟩ := hnever (n + 1) (by omega)
    obtain ⟨-, hzero⟩ | ⟨hstep, hexec⟩ := htimer.other htick (hrun n) hne
    · exact hnonzero hzero
    · exact hwrites hstep hexec
  have hfalls : Antitone fun k => (timer (trace (m + k))).toNat := antitone_nat_of_succ_le fun k => by
    by_cases htick : schedule (m + k) = .tick
    · exact (hticked (by omega) htick).trans_le (Nat.sub_le _ _)
    · exact (congrArg _ (hkept (by omega) htick)).le
  obtain ⟨k, hrest⟩ := WellFoundedLT.antitone_chain_condition hfalls
  obtain ⟨n, hn, htick⟩ := hticks (m + k)
  obtain ⟨j, rfl⟩ := Nat.exists_eq_add_of_le (show m ≤ n by omega)
  obtain ⟨hnonzero, -⟩ := hnever (m + j) (by omega)
  have hpos : 0 < (timer (trace (m + j))).toNat := Nat.pos_of_ne_zero fun hz => hnonzero (BitVec.eq_of_toNat_eq hz)
  have hlower : (timer (trace (m + j + 1))).toNat < (timer (trace (m + j))).toNat := by
    rw [hticked (by omega) htick]
    omega
  exact hlower.ne ((hrest (j + 1) (by omega)).symm.trans (hrest j (by omega)))

/-- Ticks alone, from a state that is not FAULTED. -/
theorem runEvents_ticks (n : Nat) {s : State} (hm : s.mode ≠ .faulted) :
    ∃ t, runEvents (List.replicate n .tick) s = .next t ∧
      t.dt.toNat = s.dt.toNat - n ∧ t.sr.toNat = s.sr.toNat - n := by
  induction n generalizing s with
  | zero => exact ⟨s, rfl, rfl, rfl⟩
  | succ n ih =>
    obtain ⟨t, hrun, hdt, hsr⟩ := ih (s := s.tick) (by rwa [State.tick_mode])
    rw [State.tick_dt_toNat hm] at hdt
    rw [State.tick_sr_toNat hm] at hsr
    exact ⟨t, hrun, by omega, by omega⟩

/-- Settles O48: by induction on the number of ticks, and for the infinite runs each timer counts down. -/
theorem timersCountDownToZero : Obligations.TimersCountDownToZero :=
  ⟨fun n _s hm => runEvents_ticks n hm, fun _schedule _trace hrun hticks m =>
    ⟨dt_countsDown.reaches_zero hrun hticks m, sr_countsDown.reaches_zero hrun hticks m⟩⟩

/-! ### SOUND -/

theorem State.sr_ne_of_sound_ne {s t : State} (h : t.sound ≠ s.sound) : t.sr ≠ s.sr :=
  fun hsr => h (by rw [State.sound, hsr, State.sound])

/-- A tick changes SOUND only outside FAULTED, and only from SR = 1 (60_exceptions R166, R169). -/
theorem State.tick_sound_ne {s : State} (h : s.tick.sound ≠ s.sound) : s.mode ≠ .faulted ∧ s.sr.toNat = 1 := by
  obtain ⟨-, htick⟩ | ⟨hm, -⟩ := s.tick_cases
  · rw [htick] at h
    exact absurd rfl h
  · refine ⟨hm, ?_⟩
    rw [Ne, Bool.eq_iff_iff, State.sound_iff, State.sound_iff, State.tick_sr_toNat hm] at h
    omega

/-- Settles O50: SOUND follows SR, whose writers are LD ST, Vx, the tick and the reset. -/
theorem soundChangesOnlyWhereStated : Obligations.SoundChangesOnlyWhereStated := by
  refine ⟨fun ins s t h hne => eq_ldStVx_of_sr_ne h (State.sr_ne_of_sound_ne hne),
    fun s => ⟨?_, fun code pressed => ?_⟩, fun s hne => ?_, fun e s t h hne => ?_⟩
  · obtain ⟨-, hsr⟩ := s.poll_timers
    rw [State.sound, hsr, State.sound]
  · obtain ⟨-, -, -, hsr⟩ := s.keyEvent_other code pressed
    rw [State.sound, hsr, State.sound]
  · obtain ⟨hm, hsr⟩ := State.tick_sound_ne hne
    have hon : s.sound = true := s.sound_iff.mpr (by omega)
    exact ⟨BitVec.eq_of_toNat_eq hsr, hon, by simpa [hon] using hne⟩
  · by_cases htick : e = .tick
    · subst htick
      cases h
      obtain ⟨hm, hsr⟩ := State.tick_sound_ne hne
      exact .inr (.inl ⟨rfl, hm, BitVec.eq_of_toNat_eq hsr⟩)
    · obtain ⟨⟨program, he⟩, hzero⟩ | ⟨hstep, hm, op, _, hfetch, hdecode, x, rfl⟩ :=
        sr_countsDown.other htick h (State.sr_ne_of_sound_ne hne)
      · exact .inr (.inr ⟨program, he, by simp [State.sound, hzero]⟩)
      · exact .inl ⟨hstep, hm, op, x, hfetch, hdecode⟩

/-! ### STATUS -/

theorem State.status_eq_fault_iff (s : State) (record : FaultRecord) :
    s.status = .fault record ↔ s.fault = some record := by
  unfold State.status
  cases s.fault with
  | none => by_cases hm : s.mode = .awaitKey <;> simp [hm]
  | some held => simp

theorem State.status_eq_blocked_iff (s : State) :
    s.status = .blocked ↔ s.fault = none ∧ s.mode = .awaitKey := by
  unfold State.status
  cases s.fault <;> simp

theorem State.status_eq_ok_iff (s : State) : s.status = .ok ↔ s.fault = none ∧ s.mode ≠ .awaitKey := by
  unfold State.status
  cases s.fault <;> simp

/-- STATUS is a function of MODE and FAULT (60_exceptions R173, log 11). -/
theorem State.status_congr {s t : State} (hmode : t.mode = s.mode) (hfault : t.fault = s.fault) :
    t.status = s.status := by
  rw [State.status, State.status, hmode, hfault]

/-- A poll with no fault held leaves the engine waiting or running, by the captured press (44_timers_keys R146). -/
theorem State.poll_status {s : State} (hm : s.mode = .awaitKey) (hfault : s.fault = none) :
    s.poll.status = if s.kp = none then .blocked else .ok := by
  obtain ⟨hkp, hpoll⟩ | ⟨k, hkp, hpoll⟩ := s.poll_cases
  · rw [hpoll, if_pos hkp, State.status_of_awaitKey hfault hm]
  · rw [hpoll, if_neg (by simp [hkp]), State.status_eq_ok_iff]
    exact ⟨hfault, Mode.noConfusion⟩

/-- In RUNNING with no fault held, LD Vx, K alone is BLOCKED (60_exceptions R173). -/
theorem exec_blocked_iff {ins : Instr} {s t : State} (hm : s.mode = .running) (hfault : s.fault = none)
    (h : exec ins s = .next t) : t.status = .blocked ↔ ∃ x, ins = .ldVxK x := by
  rw [State.status_eq_blocked_iff]
  constructor
  · rintro ⟨-, ht⟩
    obtain ⟨-, -, -, -, -, -, -, -, -, -, hmode, -⟩ := eachPieceOfStateHasItsOwnWriters ins s t h
    obtain ⟨-, hwait⟩ | ⟨hfaulted, -⟩ := hmode (by simp [ht, hm])
    · exact hwait
    · cases ht.symm.trans hfaulted
  · rintro ⟨x, rfl⟩
    cases h
    exact ⟨hfault, rfl⟩

/-- Settles O51: the poll and the execution each with their own status, and no other event touches MODE or FAULT. -/
theorem statusIsTheResultOfTheLastStep : Obligations.StatusIsTheResultOfTheLastStep := by
  refine fun s t hs h => ⟨t.status_eq_fault_iff, fun hm => ?_, fun op ins hm hfetch hdecode => ?_,
    State.status_congr t.tick_mode t.tick_fault, fun code pressed => ?_⟩
  · cases (step_of_awaitKey hm).symm.trans h
    rw [State.poll_status hm (hs.fault_eq_none (by simp [hm]))]
    by_cases hkp : s.kp = none <;> simp [hkp]
  · rw [step_running s op hm hfetch, hdecode] at h
    exact exec_blocked_iff hm (hs.fault_eq_none (by simp [hm])) h
  · obtain ⟨hmode, hfault, -⟩ := t.keyEvent_other code pressed
    exact State.status_congr hmode hfault

/-! ### The wait for a key along a run -/

/-- The state with the latch and the timers of a later moment: what ticks and key events may write while the engine
waits, besides KP. -/
def State.withInputs (w : State) (key : Vector Bool 16) (dt sr : Byte) : State :=
  { w with key := key, dt := dt, sr := sr }

section Wait

variable {w : State}

theorem State.tick_withInputs (hm : w.mode ≠ .faulted) (key : Vector Bool 16) (dt sr : Byte) :
    (w.withInputs key dt sr).tick = w.withInputs key (countedDown dt) (countedDown sr) :=
  State.tick_of_not_faulted (s := w.withInputs key dt sr) hm

theorem State.keyEvent_withInputs (hm : w.mode ≠ .faulted) (key : Vector Bool 16) (dt sr : Byte) (code : KeyCode)
    (pressed : Bool) : (w.withInputs key dt sr).keyEvent code pressed =
      { w with kp := (w.withInputs key dt sr).capturedBy code pressed }.withInputs (key.set code.val pressed) dt sr :=
  State.keyEvent_of_not_faulted (s := w.withInputs key dt sr) hm code pressed

/-- A key event that leaves KP as it is moves the latch alone. -/
theorem State.keyEvent_withInputs_of_kp (hm : w.mode ≠ .faulted) {key : Vector Bool 16} {dt sr : Byte} {code : KeyCode}
    {pressed : Bool} (hkp : (w.withInputs key dt sr).capturedBy code pressed = w.kp) :
    (w.withInputs key dt sr).keyEvent code pressed = w.withInputs (key.set code.val pressed) dt sr := by
  rw [State.keyEvent_withInputs hm, hkp]

/-- Polls, ticks and key events without a new press leave an engine that waits with no press captured waiting
(60_exceptions R171, 44_timers_keys R146). -/
theorem runEvents_of_noNewPress (hm : w.mode = .awaitKey) (hkp : w.kp = none) (events : List Event)
    (key : Vector Bool 16) (dt sr : Byte) (hpress : noNewPress key events = true) :
    ∃ dt' sr', runEvents events (w.withInputs key dt sr) = .next (w.withInputs (latchAfter key events) dt' sr') := by
  have hlive : w.mode ≠ .faulted := by simp [hm]
  induction events generalizing key dt sr with
  | nil => exact ⟨dt, sr, rfl⟩
  | cons e rest ih =>
    cases e with
    | step =>
      have hpoll : (w.withInputs key dt sr).poll = w.withInputs key dt sr := by
        simp [State.poll, State.withInputs, hkp]
      have hstep : applyEvent .step (w.withInputs key dt sr) = .next (w.withInputs key dt sr) :=
        (step_of_awaitKey (s := w.withInputs key dt sr) hm).trans (congrArg _ hpoll)
      rw [runEvents, hstep]
      exact ih key dt sr hpress
    | tick =>
      rw [runEvents, applyEvent, State.tick_withInputs hlive]
      exact ih key _ _ hpress
    | key code pressed =>
      rw [noNewPress, Bool.and_eq_true] at hpress
      obtain ⟨hold, hrest⟩ := hpress
      have hdown (hp : pressed = true) : key[code.val] = true := by simpa [hp] using hold
      have hcapture : (w.withInputs key dt sr).capturedBy code pressed = w.kp :=
        State.capturedBy_of_no_press _ _ _ hdown
      rw [runEvents, applyEvent, State.keyEvent_withInputs_of_kp hlive hcapture]
      exact ih _ dt sr hrest
    | reset program => cases hpress

/-- Ticks and key events leave an engine that waits with a press captured waiting with that press (60_exceptions
R171). -/
theorem runEvents_of_captured (hm : w.mode = .awaitKey) {code : KeyCode} (hkp : w.kp = some code)
    (events : List Event) (hevents : ∀ e ∈ events, e = .tick ∨ ∃ k pressed, e = .key k pressed)
    (key : Vector Bool 16) (dt sr : Byte) :
    ∃ key' dt' sr', runEvents events (w.withInputs key dt sr) = .next (w.withInputs key' dt' sr') := by
  have hlive : w.mode ≠ .faulted := by simp [hm]
  induction events generalizing key dt sr with
  | nil => exact ⟨key, dt, sr, rfl⟩
  | cons e rest ih =>
    rw [List.forall_mem_cons] at hevents
    obtain ⟨rfl | ⟨k, pressed, rfl⟩, hrest⟩ := hevents
    · rw [runEvents, applyEvent, State.tick_withInputs hlive]
      exact ih hrest key _ _
    · have hcapture : (w.withInputs key dt sr).capturedBy k pressed = w.kp :=
        (State.capturedBy_of_captured (w.withInputs key dt sr) k code pressed hkp).trans hkp.symm
      rw [runEvents, applyEvent, State.keyEvent_withInputs_of_kp hlive hcapture]
      exact ih hrest _ dt sr

/-- The press of an unpressed key is captured where none is yet (60_exceptions R171). -/
theorem State.keyEvent_withInputs_of_new_press (hm : w.mode = .awaitKey) (hkp : w.kp = none) {key : Vector Bool 16}
    {code : KeyCode} (hup : key[code.val] = false) (dt sr : Byte) :
    (w.withInputs key dt sr).keyEvent code true =
      { w with kp := some code }.withInputs (key.set code.val true) dt sr := by
  have hcapture : (w.withInputs key dt sr).capturedBy code true = some code := if_pos ⟨hm, rfl, hup, hkp⟩
  rw [State.keyEvent_withInputs (by simp [hm]), hcapture]

/-- The state in which the step of a waiting engine leaves it, once the press is captured (44_timers_keys R146). -/
def State.delivered (w : State) (code : KeyCode) : State :=
  ((w.setReg w.waitx (keyByte code)).jump (w.pc + 2)).endWait

theorem State.delivered_reg_waitx (w : State) (code : KeyCode) :
    ((w.delivered code).reg w.waitx).toNat = code.val := by
  simp [State.delivered, keyByte_toNat]

theorem State.delivered_reg_other (w : State) (code : KeyCode) {r : RegIdx} (hr : r ≠ w.waitx) :
    (w.delivered code).reg r = w.reg r := by
  simp [State.delivered, hr]

theorem applyEvent_step_of_captured (hm : w.mode = .awaitKey) {code : KeyCode} (hkp : w.kp = some code) :
    applyEvent .step w = .next (w.delivered code) := by
  rw [applyEvent, step_of_awaitKey hm]
  simp [State.poll, hkp, State.delivered]

end Wait

theorem runEvents_singleton (e : Event) (s : State) : runEvents [e] s = applyEvent e s := by
  rw [runEvents]
  cases applyEvent e s <;> rfl

/-- A schedule whose every first part runs has an infinite run. -/
theorem exists_run_of_runEvents {schedule : Schedule} {s : State}
    (h : ∀ n, ∃ t, runEvents ((List.range n).map schedule) s = .next t) :
    ∃ trace, trace 0 = s ∧ IsRun schedule trace := by
  obtain ⟨trace, hzero, hrun, -⟩ := exists_run
    (fun n t => runEvents ((List.range n).map schedule) s = .next t) schedule s rfl fun n t ht => by
      obtain ⟨u, hu⟩ := h (n + 1)
      refine ⟨u, ?_, hu⟩
      rw [List.range_succ, List.map_append, runEvents_append _ _ _ _ ht] at hu
      exact (runEvents_singleton _ t).symm.trans hu
  exact ⟨trace, hzero, hrun⟩

/-- Before the first step of a schedule without resets come ticks and key events alone. -/
theorem tick_or_key_before_step {schedule : Schedule} {n : Nat} (hnostep : ∀ k < n, schedule k ≠ .step)
    (hnoreset : ∀ k program, schedule k ≠ .reset program) :
    ∀ e ∈ (List.range n).map schedule, e = .tick ∨ ∃ k pressed, e = .key k pressed := by
  intro e he
  obtain ⟨k, hk, rfl⟩ := List.mem_map.mp he
  cases hevent : schedule k with
  | step => exact absurd hevent (hnostep k (List.mem_range.mp hk))
  | tick => exact .inl rfl
  | key code pressed => exact .inr ⟨code, pressed, rfl⟩
  | reset program => exact absurd hevent (hnoreset k program)

/-- The wait up to the press, the capture, the events after it and the step that delivers the key. -/
theorem runEvents_first_press {w : State} (hm : w.mode = .awaitKey) (hkp : w.kp = none) {code : KeyCode}
    {before after : List Event} (hpress : noNewPress w.key before = true)
    (hup : (latchAfter w.key before)[code.val] = false)
    (hafter : ∀ e ∈ after, e = .tick ∨ ∃ k pressed, e = .key k pressed) :
    ∃ key dt sr, runEvents (before ++ [.key code true] ++ after ++ [.step]) w =
      .next (({ w with kp := some code }.withInputs key dt sr).delivered code) := by
  obtain ⟨dt, sr, hwaits⟩ := runEvents_of_noNewPress hm hkp before w.key w.dt w.sr hpress
  obtain ⟨key', dt', sr', hholds⟩ := runEvents_of_captured (w := { w with kp := some code }) hm rfl after hafter
    ((latchAfter w.key before).set code.val true) dt sr
  refine ⟨key', dt', sr', ?_⟩
  calc runEvents (before ++ [.key code true] ++ after ++ [.step]) w
    _ = runEvents ([.key code true] ++ (after ++ [.step])) (w.withInputs (latchAfter w.key before) dt sr) := by
      rw [List.append_assoc, List.append_assoc]
      exact runEvents_append _ _ _ _ hwaits
    _ = runEvents (after ++ [.step]) _ :=
      runEvents_append _ _ _ _ (congrArg _ (State.keyEvent_withInputs_of_new_press hm hkp hup dt sr))
    _ = runEvents [.step] _ := runEvents_append _ _ _ _ hholds
    _ = _ := (runEvents_singleton _ _).trans
      (applyEvent_step_of_captured (w := { w with kp := some code }.withInputs key' dt' sr') hm rfl)

/-- A captured press is delivered at the first step (70_reset_and_hazards R198). -/
theorem IsRun.delivers_captured {schedule : Schedule} {trace : Nat → State} (hrun : IsRun schedule trace)
    (hsteps : Recurs .step schedule) (hnoreset : ∀ n program, schedule n ≠ .reset program) {code : KeyCode}
    (hm : (trace 0).mode = .awaitKey) (hkp : (trace 0).kp = some code) :
    ∃ n key dt sr, trace n = ((trace 0).withInputs key dt sr).delivered code := by
  have hstep : ∃ n, schedule n = .step := by
    obtain ⟨n, -, hn⟩ := hsteps 0
    exact ⟨n, hn⟩
  obtain ⟨key, dt, sr, hholds⟩ := runEvents_of_captured hm hkp _
    (tick_or_key_before_step (fun _k hk => Nat.find_min hstep hk) hnoreset) (trace 0).key (trace 0).dt (trace 0).sr
  have hwaits : trace (Nat.find hstep) = (trace 0).withInputs key dt sr :=
    Host.Outcome.next.inj ((hrun.runEvents_eq _).symm.trans hholds)
  have hlast := hrun (Nat.find hstep)
  rw [Nat.find_spec hstep, hwaits] at hlast
  exact ⟨_, key, dt, sr, Host.Outcome.next.inj
    (hlast.symm.trans (applyEvent_step_of_captured (w := (trace 0).withInputs key dt sr) hm hkp))⟩

/-- Without a press the wait goes on for ever (70_reset_and_hazards R198). -/
theorem exists_run_of_noNewPress {w : State} (hm : w.mode = .awaitKey) (hkp : w.kp = none) {schedule : Schedule}
    (hpress : ∀ n, noNewPress w.key ((List.range n).map schedule) = true) :
    ∃ trace, trace 0 = w ∧ IsRun schedule trace ∧ ∀ n, ∃ key dt sr, trace n = w.withInputs key dt sr := by
  have hwaits (n : Nat) := runEvents_of_noNewPress hm hkp _ w.key w.dt w.sr (hpress n)
  obtain ⟨trace, hzero, hrun⟩ := exists_run_of_runEvents (s := w) fun n => by
    obtain ⟨dt, sr, hn⟩ := hwaits n
    exact ⟨_, hn⟩
  refine ⟨trace, hzero, hrun, fun n => ?_⟩
  obtain ⟨dt, sr, hn⟩ := hwaits n
  have hreaches := hrun.runEvents_eq n
  rw [hzero] at hreaches
  exact ⟨_, dt, sr, Host.Outcome.next.inj (hreaches.symm.trans hn)⟩

/-- Settles O46: the wait of LD Vx, K up to the first new press and its delivery, the delivery in an infinite run, and
the infinite run without a press. -/
theorem firstPressEndsTheWait : Obligations.FirstPressEndsTheWait := by
  refine ⟨fun s x code before after hpress hup hafter => ?_,
    fun schedule trace code hrun hsteps hnoreset hm hkp => ?_, fun s x schedule hpress => ?_⟩
  · obtain ⟨key, dt, sr, hdelivers⟩ := runEvents_first_press (w := s.startWait x) rfl rfl hpress hup hafter
    exact ⟨_, _, rfl, hdelivers, State.delivered_reg_waitx _ code, rfl, rfl, rfl, rfl,
      fun r hr => State.delivered_reg_other _ code hr, rfl, rfl, rfl, rfl, rfl⟩
  · obtain ⟨n, key, dt, sr, hn⟩ := hrun.delivers_captured hsteps hnoreset hm hkp
    refine ⟨n, ?_⟩
    rw [hn]
    exact ⟨rfl, State.delivered_reg_waitx _ code, rfl⟩
  · obtain ⟨trace, hzero, hrun, hwaits⟩ := exists_run_of_noNewPress (w := s.startWait x) rfl rfl hpress
    refine ⟨trace, congrArg _ hzero.symm, hrun, fun n => ?_⟩
    obtain ⟨key, dt, sr, hn⟩ := hwaits n
    rw [hn]
    exact ⟨rfl, rfl, rfl, fun _r => rfl⟩

end Sys2Proof.Machine
end
